-- ==== Sys2Proof/Word.lean ====
section
/-! DEFINITION. The plain words of the model: bytes, host addresses, sequence numbers, labels, and tables of a
fixed number of like entries. -/

namespace Sys2Proof

/-- One byte of a record, a parcel or host memory. -/
abbrev Byte := BitVec 8

/-- A 64-bit host address (R181, physical ports). -/
abbrev Addr := BitVec 64

/-- A 12-bit link sequence number; numbers follow one another modulo 4096 (R46). -/
abbrev Seq := BitVec 12

/-- A table of exactly `n` entries: the 64 streams, the 32 send contexts, the 8 landing rings. -/
structure Table (n : Nat) (α : Type) where
  toList : List α
  length_eq : toList.length = n
deriving DecidableEq, Repr

/-- The table whose entries are all `a`. -/
def Table.fill (n : Nat) (a : α) : Table n α := ⟨List.replicate n a, List.length_replicate ..⟩

/-- Entry `i`. -/
def Table.get (t : Table n α) (i : Fin n) : α := t.toList.get (i.cast t.length_eq.symm)

/-- The table with entry `i` replaced by `a`. -/
def Table.set (t : Table n α) (i : Fin n) (a : α) : Table n α :=
  ⟨t.toList.set i.val a, by simp [t.length_eq]⟩

/-- The table with entry `i` changed by `f`. -/
def Table.modify (t : Table n α) (i : Fin n) (f : α → α) : Table n α := t.set i (f (t.get i))

/-- Every entry changed by `f`. -/
def Table.map (t : Table n α) (f : α → β) : Table n β := ⟨t.toList.map f, by simp [t.length_eq]⟩

/-- The numbers `0` to `n - 1` in ascending order. -/
def numbers (n : Nat) : List (Fin n) := List.finRange n

/-- The number that names entry `i` of `n`, when there is such an entry. -/
def index? (n i : Nat) : Option (Fin n) := if h : i < n then some ⟨i, h⟩ else none

/-- A count that stops at `most` (R30, R43, R44: counts that saturate). -/
def countUp (most n : Nat) : Nat := min most (n + 1)

end Sys2Proof
end

