-- ==== Sys2Proof/Config.lean ====
section
/-! DEFINITION. The free values: what the manual leaves open and a run must still settle. Each is a constant
without a body, so nothing can be proved of its value; the field `choice` of the state counts the values used. -/

namespace Sys2Proof

/-- Which of the producers that offer a completion at the same moment CQ takes first. R155 leaves the order
open ("in either order"). Log entry 7. -/
opaque Config.offerPick : Nat → Nat

/-- The place of a landing ring among the rings whose messages one teardown ends at once. R143 and R144 give
no order among the rings. Log entry 8. -/
opaque Config.ringRank : Nat → Nat → Nat

end Sys2Proof
end

