-- ==== Sys2Proof/Syntax.lean ====
section
/-! DEFINITION. The commands the block takes, one constructor for each row of spec/opcode_table.json, and the
records, parcels and access names that are their operands. -/

namespace Sys2Proof

/-- The thirteen host-to-part rings (R87). -/
inductive RingId where
  | command
  | send (r : Fin 4)
  | landing (r : Fin 8)
deriving DecidableEq, Repr

/-- How a host read ended: with its data, or in failure (R188). -/
inductive ReadEnd where
  | data (bytes : List Byte)
  | failed
deriving DecidableEq, Repr

/-- What a host access in flight is for (R188, R189). A gathering, a refetch and a landing may have several
accesses in flight; `k` numbers them in the order they were made. No two accesses in flight at once have the same
kind: each unit waits for one before it asks for the next. -/
inductive AccessKind where
  | configRead
  | ringRead (ring : RingId)
  | custodyWrite (ring : RingId)
  | gatherRead (k : Nat)
  | refetchRead (k : Nat)
  | landingWrite (ring : Fin 8) (k : Nat)
  | snapshotWrite
  | completionWrite
deriving DecidableEq, Repr

/-- The access whose 50 ms have run out: one of this run, or the `k`-th of those issued before a function
reset (R188, R193). -/
inductive AccessRef where
  | live (kind : AccessKind)
  | stale (k : Nat)
deriving DecidableEq, Repr

/-- An access whose answer reaches no unit: the `k`-th of those issued before a function reset (R193), or the
`k`-th of those that have timed out and whose answer may still come (R188). -/
inductive OldAccess where
  | stale (k : Nat)
  | timedOut (k : Nat)
deriving DecidableEq, Repr

/-- A send HEAD record's fields (Record and Parcel Formats). -/
structure HeadRecord where
  stream : Nat
  fragmentCount : Nat
  mark : BitVec 16
  tag : BitVec 32
  totalLength : Nat
  address : Addr
  length : Nat
deriving DecidableEq, Repr

/-- A send record, by its kind code (R195). -/
inductive SendRecord where
  | head (h : HeadRecord)
  | fragment (address : Addr) (length : Nat)
  | other (kind : Nat)
deriving DecidableEq, Repr

/-- A DATA parcel's fields besides its sequence number (R26). -/
structure DataParcel where
  stream : Nat
  index : Nat
  first : Bool
  last : Bool
  mark : BitVec 16
  payload : List Byte
deriving DecidableEq, Repr

/-- A GRANT parcel's fields besides its sequence number (R26). -/
structure GrantParcel where
  stream : Nat
  allotment : Nat
  credits : Nat
  maxMessage : Nat
deriving DecidableEq, Repr

/-- A HELLO's fields (R27). -/
structure HelloParcel where
  epoch : Nat
  seen : Nat
  code : Nat
  window : Nat
  label : BitVec 32
deriving DecidableEq, Repr

/-- The eight parcel kinds (R26, R27). -/
inductive Parcel where
  | data (seq : Seq) (d : DataParcel)
  | grant (seq : Seq) (g : GrantParcel)
  | withdraw (seq : Seq) (stream : Nat)
  | cut (seq : Seq) (stream : Nat)
  | void (seq : Seq)
  | ack (expected : Seq)
  | retry (expected : Seq)
  | hello (h : HelloParcel)
deriving DecidableEq, Repr

/-- A command record's code and parameters (R165, R195). -/
inductive Command where
  | linkStart (code window : Nat)
  | linkStop
  | streamOpen (stream sendRing landingRing allotment returnBatch maxMessage : Nat)
  | streamClose (stream : Nat)
  | streamQuery (stream : Nat) (address : Addr)
  | linkQuery (clear : Bool) (address : Addr)
  | setTimers (ackDelay replayLimit replayTimeout helloInterval faultHoldoff gapTimeout : Nat)
  | unknown (code : Nat)
deriving DecidableEq, Repr

/-- The commands: the rows of the opcode table. -/
inductive Instr where
  | powerOnReset
  | controlReset (value : BitVec 32)
  | controlEnable (value : BitVec 32)
  | controlDisable (value : BitVec 32)
  | eventWrite (value : BitVec 32)
  | intMaskWrite (value : BitVec 32)
  | registerWriteOther (offset : BitVec 12) (value : BitVec 32)
  | ringNotify (value : BitVec 32)
  | completionReturn (value : BitVec 32)
  | notifyInvalidSelector (value : BitVec 32)
  | configReadEnd (result : ReadEnd)
  | signalAcquired
  | signalLost
  | dataArrival (seq : Seq) (d : DataParcel)
  | grantArrival (seq : Seq) (g : GrantParcel)
  | withdrawArrival (seq : Seq) (stream : Nat)
  | cutArrival (seq : Seq) (stream : Nat)
  | voidArrival (seq : Seq)
  | ackArrival (expected : Seq)
  | retryArrival (expected : Seq)
  | helloArrival (h : HelloParcel)
  | badParcel (bytes : List Byte)
  | helloTimerExpiry
  | holdoffTimerExpiry
  | ackDelayExpiry
  | replayTimerExpiry
  | gapTimerExpiry (ring : Fin 8)
  | interruptHoldoffExpiry
  | hostAccessTimeout (access : AccessRef)
  | teardownApply
  | sendHello
  | sendPendingNote
  | sendReplay
  | sendControlParcel
  | sendDataParcel
  | transmissionEnd
  | dataPick
  | gatherReadEnd (k : Nat) (result : ReadEnd)
  | refetchStart
  | refetchEnd (k : Nat) (result : ReadEnd)
  | ringReadEnd (ring : RingId) (result : ReadEnd)
  | custodyWriteEnd (ring : RingId) (ok : Bool)
  | heldRingRead (ring : RingId)
  | sendHeadRecord (ring : Fin 4) (h : HeadRecord)
  | sendFragmentRecord (ring : Fin 4) (record : SendRecord)
  | strayRecord (ring : Fin 4) (record : SendRecord)
  | landingRecord (ring : Fin 8) (address : Addr) (length : Nat)
  | linkStart (tag : BitVec 32) (code window : Nat)
  | linkStop (tag : BitVec 32)
  | streamOpen (tag : BitVec 32) (stream sendRing landingRing allotment returnBatch maxMessage : Nat)
  | streamClose (tag : BitVec 32) (stream : Nat)
  | streamQuery (tag : BitVec 32) (stream : Nat) (address : Addr)
  | linkQuery (tag : BitVec 32) (clear : Bool) (address : Addr)
  | setTimers (tag : BitVec 32) (ackDelay replayLimit replayTimeout helloInterval faultHoldoff gapTimeout : Nat)
  | unknownCommand (tag : BitVec 32) (code : Nat)
  | snapshotWriteEnd (ok : Bool)
  | deliveryTake
  | landingWriteEnd (ring : Fin 8) (k : Nat) (ok : Bool)
  | completionWriteBegin
  | completionWriteEnd (ok : Bool)
  | staleAccessEnd (access : OldAccess) (result : ReadEnd)
deriving DecidableEq, Repr

end Sys2Proof
end

