-- ==== Sys2Proof/Machine/State.lean ====
section
/-! DEFINITION. The state of the part, unit by unit, as plain data, and its value after a power-on reset. -/

namespace Sys2Proof.Machine

/-! ## Small types -/

/-- The four device states (R181, R184). -/
inductive DeviceState where
  | disabled | loading | running | fault
deriving DecidableEq, Repr

/-- The fault causes of STATUS (R184). -/
inductive FaultCause where
  | none | configRead | configInvalid | ringRead | custodyWrite | completionWrite
deriving DecidableEq, Repr

/-- A timer: idle, or running with the interval it was started with. The interval is in microseconds. -/
inductive Timer where
  | idle
  | running (interval : Nat)
deriving DecidableEq, Repr

/-- The link states (R31). -/
inductive LinkState where
  | offline | awaitSignal | hello | up | holdoff
deriving DecidableEq, Repr

/-- hello due (R35). -/
inductive HelloDue where
  | none | periodic | answer
deriving DecidableEq, Repr

/-- The causes a link teardown can have, and none (R31, R41). -/
inductive LinkCause where
  | none | signalLost | replayLimit | peerRestart | stopped
deriving DecidableEq, Repr

/-- Protocol error causes, of a stream (R1) and of the link (R30). -/
inductive ProtocolCause where
  | none | grantInvalid | grantMismatch | creditExcess | withdrawUnexpected | dataExcess | dataUnexpected
  | helloInvalid | helloMismatch | streamInvalid
deriving DecidableEq, Repr

/-- The seven stream states (R1). -/
inductive StreamState where
  | closed | offered | localOpen | opened | closing | winding | disrupted
deriving DecidableEq, Repr

/-- The pending note (R52). -/
inductive Note where
  | none | ack | retry
deriving DecidableEq, Repr

/-- The statuses completion records carry (Record and Parcel Formats, status codes). -/
inductive Status where
  | ok | cancelled | peerClosed | linkLost | hostReadFault | hostWriteFault | badRecord | lengthMismatch
  | streamNotOpen | wrongRing | tooLong | oversize | incomplete | cut | badState | badParam | noSpace
  | linkNotUp | unknownCommand
deriving DecidableEq, Repr

/-! ## HI -/

/-- Where a ring lies and how many records it has (R186). -/
structure RingConfig where
  base : Addr := 0
  length : Nat := 0
deriving DecidableEq, Repr

/-- HI's copy of the configuration block (R186). -/
structure ConfigCopy where
  command : RingConfig := {}
  send : Table 4 RingConfig := .fill 4 {}
  landing : Table 8 RingConfig := .fill 8 {}
  completion : RingConfig := {}
  weight1 : Nat := 0
  weight2 : Nat := 0
  weight3 : Nat := 0
  burstLimit : Nat := 0
  threshold : Nat := 0
  holdoff : Nat := 0
  nodeLabel : BitVec 32 := 0
deriving DecidableEq, Repr

/-- One host access in flight (R188). `data` is what a write carries. Its presence in the list is its running
50 ms timer. -/
structure Access where
  kind : AccessKind
  address : Addr
  length : Nat
  data : List Byte := []
deriving DecidableEq, Repr

/-- The host interface unit (R181 to R193). `event` and `intMask` hold COMPLETION, NOTIFY_ERROR and FAULT in
bits 0, 1 and 2. `stale` holds the accesses issued before a function reset that have not ended, and `timedOut` those
that the timeout has ended and whose answer may still come (log entry 23). `interrupts` counts the interrupt messages
sent (log entry 19). -/
structure HostInterface where
  deviceState : DeviceState := .disabled
  faultCause : FaultCause := .none
  enable : Bool := false
  event : BitVec 3 := 0
  intMask : BitVec 3 := 7
  configLo : BitVec 32 := 0
  configHi : BitVec 32 := 0
  loadAddress : Addr := 0
  loadAbandoned : Bool := false
  config : ConfigCopy := {}
  accesses : List Access := []
  stale : List Access := []
  timedOut : List Access := []
  interrupts : Nat := 0
deriving DecidableEq, Repr

/-! ## LK -/

/-- The nine link counters (R44). -/
structure Counters where
  parcelsSent : Nat := 0
  parcelsReplayed : Nat := 0
  retriesSent : Nat := 0
  retriesReceived : Nat := 0
  badParcels : Nat := 0
  duplicates : Nat := 0
  staleAcks : Nat := 0
  protocolErrors : Nat := 0
  linkFaults : Nat := 0
deriving DecidableEq, Repr

/-- The pending teardown (R41). -/
structure Teardown where
  cause : LinkCause
  stopRequested : Bool
  keptHello : Option HelloParcel
deriving DecidableEq, Repr

/-- The link controller (R31) and its framer's transmission (R28). `helloExit` holds the leaving of HELLO that
waits for a HELLO's transmission to end, and whether a LINK_STOP asked for it (R32, R40). -/
structure Link where
  state : LinkState := .offline
  signalPresent : Bool := false
  localEpoch : Nat := 0
  peerEpoch : Nat := 0
  offeredCode : Nat := 0
  offeredWindow : Nat := 0
  peerCode : Nat := 0
  peerWindow : Nat := 0
  peerLabel : BitVec 32 := 0
  payloadSize : Nat := 0
  window : Nat := 0
  helloDue : HelloDue := .none
  helloTimer : Timer := .idle
  holdoffTimer : Timer := .idle
  teardown : Option Teardown := none
  helloExit : Option Bool := none
  eventFlag : Bool := false
  latestCause : LinkCause := .none
  transitions : Nat := 0
  protocolFlag : Bool := false
  protocolCause : ProtocolCause := .none
  protocolCount : Nat := 0
  counters : Counters := {}
  transmission : Option Parcel := none
deriving DecidableEq, Repr

/-! ## SQ -/

/-- One host read of a gathering or a refetch: its range, and how it ended, if it has (R61, R115). -/
structure HostRead where
  address : Addr
  length : Nat
  result : Option ReadEnd := none
deriving DecidableEq, Repr

/-- What a replay list entry holds (R54). An entry turned VOID has content `void`. -/
inductive Content where
  | data (context : Fin 32) (stream : Fin 64) (index offset length : Nat) (first last : Bool) (mark : BitVec 16)
  | grant (stream : Fin 64) (allotment credits maxMessage : Nat)
  | withdraw (stream : Fin 64)
  | cut (stream : Fin 64)
  | void
deriving DecidableEq, Repr

/-- An entry of the replay list (R54). -/
structure ReplayEntry where
  seq : Seq
  content : Content
deriving DecidableEq, Repr

/-- The replay staging slot (R54). -/
inductive ReplaySlot where
  | empty
  | reading (seq : Seq) (wanted : Bool) (reads : List HostRead)
  | ready (seq : Seq) (payload : List Byte)
deriving DecidableEq, Repr

/-- The sequencing unit: the receive side (R47) and the send side (R54). -/
structure Sequencing where
  expected : Seq := 0
  unacknowledged : Nat := 0
  ackTimer : Timer := .idle
  retryPending : Bool := false
  note : Note := .none
  next : Seq := 0
  replay : List ReplayEntry := []
  rewind : Option Seq := none
  replayTimer : Timer := .idle
  replayCount : Nat := 0
  slot : ReplaySlot := .empty
deriving DecidableEq, Repr

/-! ## SC, and the fields other units keep in the stream table -/

/-- A pending offer (R8). -/
structure Offer where
  allotment : Nat
  credits : Nat
  maxMessage : Nat
deriving DecidableEq, Repr

/-- The mode of a reassembly record (R124). -/
inductive Mode where
  | idle | assembling | discarding
deriving DecidableEq, Repr

/-- A stream's reassembly record (R124). -/
structure Reassembly where
  mode : Mode := .idle
  expected : Nat := 0
  bytesSoFar : Nat := 0
  firstSlot : Nat := 0
  lastSlot : Nat := 0
  mark : BitVec 16 := 0
deriving DecidableEq, Repr

/-- One entry of the stream table (R1). -/
structure StreamEntry where
  state : StreamState := .closed
  sendRing : Fin 4 := 0
  landingRing : Fin 8 := 0
  maxInbound : Nat := 0
  allotment : Nat := 0
  returnBatch : Nat := 0
  occupancy : Nat := 0
  pendingReturns : Nat := 0
  credits : Nat := 0
  peerAllotment : Nat := 0
  peerMaxMessage : Nat := 0
  offer : Option Offer := none
  withdrawSequenced : Bool := false
  peerWithdrawSeen : Bool := false
  markerProcessed : Bool := false
  closeWaiting : Bool := false
  reassembly : Reassembly := {}
  sendLine : List (Fin 32) := []
  offeredFlag : Bool := false
  endedFlag : Bool := false
  protocolFlag : Bool := false
  protocolCause : ProtocolCause := .none
  protocolCount : Nat := 0
deriving DecidableEq, Repr

/-- An entry of the control queue (R23). -/
inductive ControlEntry where
  | grant (stream : Fin 64) (allotment credits maxMessage : Nat)
  | withdraw (stream : Fin 64)
  | cut (stream : Fin 64)
deriving DecidableEq, Repr

/-! ## IB -/

/-- What an occupied slot holds (R70), besides the stream, which is the queue's. -/
structure StoredData where
  index : Nat
  first : Bool
  last : Bool
  mark : BitVec 16
  payload : List Byte
deriving DecidableEq, Repr

/-- An entry of an inbound queue (R74). A DATA reference holds its slot's contents (log entry 9). -/
inductive InboundEntry where
  | data (d : StoredData)
  | cutMarker
  | withdrawMarker
deriving DecidableEq, Repr

/-- The inbound store (R70, R71, R74). -/
structure InboundStore where
  freeCount : Nat := 512
  reservedTotal : Nat := 0
  queues : Table 64 (List InboundEntry) := .fill 64 []
deriving DecidableEq, Repr

/-! ## TX -/

/-- A described parcel (R107). -/
structure Described where
  context : Fin 32
  stream : Fin 64
  index : Nat
  offset : Nat
  length : Nat
  first : Bool
  last : Bool
  mark : BitVec 16
deriving DecidableEq, Repr

/-- The data staging slot (R107). -/
inductive Staging where
  | empty
  | reading (parcel : Described) (wanted : Bool) (reads : List HostRead)
  | ready (parcel : Described) (payload : List Byte)
deriving DecidableEq, Repr

/-- The transmit scheduler (R107); the outbound credits are in the stream table. -/
structure Transmitter where
  staging : Staging := .empty
  burst : Nat := 0
  turnRing : Fin 4 := 1
  turnCount : Nat := 0
deriving DecidableEq, Repr

/-! ## SF -/

/-- The states of a send context (R93). -/
inductive ContextState where
  | free | filling | ready | sending | sent | completing
deriving DecidableEq, Repr

/-- One fragment of a message to send (R93). -/
structure Fragment where
  address : Addr
  length : Nat
deriving DecidableEq, Repr

/-- A send context (R93). Context `c` belongs to send ring `c / 8`. `laterSequenced` is the model's own: a
parcel of a later message of the same stream has been sequenced (R67, log entry 17). -/
structure Context where
  state : ContextState := .free
  headIndex : Nat := 0
  tag : BitVec 32 := 0
  stream : Nat := 0
  mark : BitVec 16 := 0
  fragmentCount : Nat := 0
  fragments : List Fragment := []
  totalLength : Nat := 0
  parcelCount : Nat := 0
  nextIndex : Nat := 0
  nextOffset : Nat := 0
  acknowledged : Nat := 0
  outcome : Option Status := none
  laterSequenced : Bool := false
deriving DecidableEq, Repr

/-- The send fetcher (R93, R105). -/
structure SendFetcher where
  contexts : Table 32 Context := .fill 32 {}
  fetchOrder : Table 4 (List (Fin 32)) := .fill 4 []
  line : List (Fin 32) := []
deriving DecidableEq, Repr

/-! ## DL -/

/-- An entry of a landing cache (R123). -/
inductive CacheEntry where
  | usable (slot : Nat) (address : Addr) (length : Nat)
  | rejected (slot : Nat)
deriving DecidableEq, Repr

/-- A buffer taken from the cache (R127). -/
structure Buffer where
  slot : Nat
  address : Addr
  length : Nat
  used : Nat
deriving DecidableEq, Repr

/-- What ends a landing in flight early (R141, R142, R143). -/
inductive LandingCause where
  | none | hostWriteFault | cancelled | linkLost
deriving DecidableEq, Repr

/-- The fields of a message that a landing keeps after a teardown (R143). -/
structure KeptMessage where
  bytesSoFar : Nat
  firstSlot : Nat
  lastSlot : Nat
  mark : BitVec 16
deriving DecidableEq, Repr

/-- A landing in flight (R123, R134): the bytes DL writes of one parcel. `whole` says that the parcel was not
cut short at the max inbound message, `writes` numbers the host writes still in flight and `issued` how many
have been made. -/
structure Landing where
  stream : Fin 64
  payload : List Byte
  last : Bool
  whole : Bool
  unplaced : List Byte
  writes : List Nat
  issued : Nat
  cause : LandingCause
  kept : Option KeptMessage
deriving DecidableEq, Repr

/-- A decided message completion (R144). -/
structure MessageCompletion where
  stream : Fin 64
  firstSlot : Nat
  lastSlot : Nat
  length : Nat
  mark : BitVec 16
  status : Status
deriving DecidableEq, Repr

/-- One landing ring's state in DL (R123). -/
structure LandingRing where
  cache : List CacheEntry := []
  current : Option Buffer := none
  holder : Option (Fin 64) := none
  claimQueue : List (Fin 64) := []
  landing : Option Landing := none
  waiting : Option MessageCompletion := none
  gapTimer : Timer := .idle
  episode : Bool := false
  emptyFlag : Bool := false
deriving DecidableEq, Repr

/-- A completion on the delivery completion line (R144). -/
inductive DeliveryCompletion where
  | message (ring : Fin 8) (m : MessageCompletion)
  | rejected (ring : Fin 8) (slot length : Nat)
deriving DecidableEq, Repr

/-- The delivery engine (R123). -/
structure Delivery where
  rings : Table 8 LandingRing := .fill 8 {}
  pointer : Fin 64 := 63
  line : List DeliveryCompletion := []
deriving DecidableEq, Repr

/-! ## CQ -/

/-- The records CQ writes (R152), each with what it carries besides its kind and serial. -/
inductive Record where
  | send (ring : Nat) (headIndex : Nat) (tag : BitVec 32) (status : Status) (totalLength : Nat)
  | message (ring : Fin 8) (m : MessageCompletion)
  | landing (ring : Fin 8) (slot length : Nat)
  | command (tag : BitVec 32) (code : Nat) (status : Status)
  | linkUp (cause : LinkCause) (transitions payloadSize window : Nat) (label : BitVec 32)
  | linkDown (cause : LinkCause) (transitions payloadSize window : Nat) (label : BitVec 32)
  | linkProtocolError (cause : ProtocolCause) (count : Nat)
  | streamOffered (stream : Fin 64) (state : StreamState) (peerMaxMessage : Nat)
  | streamEnded (stream : Fin 64) (state : StreamState)
  | streamProtocolError (stream : Fin 64) (cause : ProtocolCause) (count : Nat)
  | landingEmpty (ring : Fin 8)
deriving DecidableEq, Repr

/-- CQ's writer (R146): idle, or writing one record into one slot under one serial. -/
inductive Writer where
  | idle
  | writing (slot serial : Nat) (record : Record)
deriving DecidableEq, Repr

/-- The three producers of completions (R155). -/
inductive Producer where
  | cm | sf | dl
deriving DecidableEq, Repr

/-- The completion unit (R146). -/
structure CompletionUnit where
  position : Nat := 0
  free : Nat := 0
  serial : Nat := 0
  writer : Writer := .idle
  list : List Record := []
  turn : Producer := .dl
  unannounced : Nat := 0
  holdoffTimer : Timer := .idle
deriving DecidableEq, Repr

/-! ## CM -/

/-- The phase of the command in progress (R164). WRITING keeps the counters a LINK_QUERY has copied (R44). -/
inductive Phase where
  | acting
  | writing (copied : Counters)
  | offered (status : Status)
deriving DecidableEq, Repr

/-- The command in progress (R164). -/
structure InProgress where
  command : Command
  tag : BitVec 32
  phase : Phase
deriving DecidableEq, Repr

/-- The six timer parameters and their defaults (R177), in the units a SET_TIMERS gives them. -/
structure TimerParameters where
  ackDelay : Nat := 8
  replayTimeout : Nat := 500
  replayLimit : Nat := 8
  helloInterval : Nat := 1000
  faultHoldoff : Nat := 10
  gapTimeout : Nat := 100
deriving DecidableEq, Repr

/-- The command unit (R164). -/
structure CommandUnit where
  command : Option InProgress := none
  timers : TimerParameters := {}
deriving DecidableEq, Repr

/-! ## The consumer rings -/

/-- The states of a consumer ring (R87). -/
inductive RingState where
  | idle | reading | returning | held
deriving DecidableEq, Repr

/-- What the reading unit keeps for a consumer ring (R87). -/
structure ConsumerRing where
  position : Nat := 0
  state : RingState := .idle
  renotify : Bool := false
deriving DecidableEq, Repr

/-- The thirteen consumer rings (R87). -/
structure ConsumerRings where
  command : ConsumerRing := {}
  send : Table 4 ConsumerRing := .fill 4 {}
  landing : Table 8 ConsumerRing := .fill 8 {}
deriving DecidableEq, Repr

/-! ## The whole -/

/-- The part: every unit's state, and the model's counter of free values used (log entry 7). -/
structure Part where
  hi : HostInterface := {}
  lk : Link := {}
  sq : Sequencing := {}
  streams : Table 64 StreamEntry := .fill 64 {}
  control : List ControlEntry := []
  ib : InboundStore := {}
  tx : Transmitter := {}
  sf : SendFetcher := {}
  dl : Delivery := {}
  cq : CompletionUnit := {}
  cm : CommandUnit := {}
  rings : ConsumerRings := {}
  choice : Nat := 0
deriving DecidableEq, Repr

/-- The part and the queue of the commands that wait for it, first in, first out. -/
structure State extends Part where
  pending : List Instr := []
deriving DecidableEq, Repr

/-- The machine right after a power-on reset (R191), with no command waiting. -/
def State.reset : State := {}

/-- The reasons for which the model stops with a fault: none. The part's own FAULT state (R189) is a next state
of the part, and no command of the table is left without an effect by the spec. -/
inductive Fault where
deriving DecidableEq, Repr

/-- The reasons for which the model refuses a command. -/
inductive Refusal where
  /-- Raised by `exec` alone, for a row that has no meaning yet. Safe: the run stops. No arm uses it. -/
  | notModelled (mnemonic : String)
deriving DecidableEq, Repr

end Sys2Proof.Machine
end

