-- ==== Sys2Proof/Machine/Operands.lean ====
section
/-! DEFINITION. Every layout of Record and Parcel Formats: what the part reads (the configuration block, ring
records, received parcels) and what it writes (completion records, snapshots, parcels, registers). -/

namespace Sys2Proof.Machine

/-! ## Little-endian fields -/

/-- `n` as `k` bytes, least significant first. -/
def leBytes : Nat → Nat → List Byte
  | 0, _ => []
  | k + 1, n => BitVec.ofNat 8 n :: leBytes k (n / 256)

/-- The number some bytes spell, least significant first. -/
def leValue : List Byte → Nat
  | [] => 0
  | b :: bs => b.toNat + 256 * leValue bs

/-- The field of `size` bytes at `offset`. -/
def fieldAt (bytes : List Byte) (offset size : Nat) : Nat := leValue ((bytes.drop offset).take size)

/-- `bytes` with its first `offset` bytes kept and reserved zeros up to `size` bytes in all. -/
def padTo (size : Nat) (bytes : List Byte) : List Byte := bytes ++ List.replicate (size - bytes.length) 0

/-- A flag as a number, at bit `i`. -/
def flagBit (b : Bool) (i : Nat) : Nat := if b then 2 ^ i else 0

/-! ## Codes (R195 and the code tables) -/

/-- The custody byte that reads PART (R195). -/
def custodyPart : Byte := 0xA5

def DeviceState.code : DeviceState → Nat
  | .disabled => 0 | .loading => 1 | .running => 2 | .fault => 3

def FaultCause.code : FaultCause → Nat
  | .none => 0 | .configRead => 1 | .configInvalid => 2 | .ringRead => 3 | .custodyWrite => 4 | .completionWrite => 5

def LinkState.code : LinkState → Nat
  | .offline => 0 | .awaitSignal => 1 | .hello => 2 | .up => 3 | .holdoff => 4

def LinkCause.code : LinkCause → Nat
  | .none => 0 | .signalLost => 1 | .replayLimit => 2 | .peerRestart => 3 | .stopped => 4

def StreamState.code : StreamState → Nat
  | .closed => 0 | .offered => 1 | .localOpen => 2 | .opened => 3 | .closing => 4 | .winding => 5 | .disrupted => 6

def ProtocolCause.code : ProtocolCause → Nat
  | .none => 0 | .grantInvalid => 1 | .grantMismatch => 2 | .creditExcess => 3 | .withdrawUnexpected => 4
  | .dataExcess => 5 | .dataUnexpected => 6 | .helloInvalid => 7 | .helloMismatch => 8 | .streamInvalid => 9

def Status.code : Status → Nat
  | .ok => 0x00 | .cancelled => 0x01 | .peerClosed => 0x02 | .linkLost => 0x03 | .hostReadFault => 0x04
  | .hostWriteFault => 0x05 | .badRecord => 0x06 | .lengthMismatch => 0x07 | .streamNotOpen => 0x08
  | .wrongRing => 0x09 | .tooLong => 0x0A | .oversize => 0x0B | .incomplete => 0x0C | .cut => 0x0D
  | .badState => 0x0E | .badParam => 0x0F | .noSpace => 0x10 | .linkNotUp => 0x11 | .unknownCommand => 0x12

def Mode.code : Mode → Nat
  | .idle => 0 | .assembling => 1 | .discarding => 2

/-- The command codes (R195). -/
def commandCode : Command → Nat
  | .linkStart .. => 1 | .linkStop => 2 | .streamOpen .. => 3 | .streamClose .. => 4 | .streamQuery .. => 5
  | .linkQuery .. => 6 | .setTimers .. => 7 | .unknown code => code

/-! ## The configuration block -/

/-- The ring entry `n` of the block: the base at offset 0 of the entry, the length at offset 8. -/
def ringEntry (block : List Byte) (n : Nat) : RingConfig :=
  ⟨BitVec.ofNat 64 (fieldAt block (16 * n) 8), fieldAt block (16 * n + 8) 2⟩

/-- The table whose entry `i` is `f i`. -/
def tableOf (n : Nat) (f : Fin n → α) : Table n α := ⟨(numbers n).map f, by simp [numbers]⟩

/-- The configuration block's fields. An express burst limit of 0 gives 8 (R107, R186). -/
def readConfig (block : List Byte) : ConfigCopy where
  command := ringEntry block 0
  send := tableOf 4 fun r => ringEntry block (1 + r.val)
  landing := tableOf 8 fun r => ringEntry block (5 + r.val)
  completion := ringEntry block 13
  weight1 := fieldAt block 0xE0 1
  weight2 := fieldAt block 0xE1 1
  weight3 := fieldAt block 0xE2 1
  burstLimit := if fieldAt block 0xE3 1 = 0 then 8 else fieldAt block 0xE3 1
  threshold := fieldAt block 0xE4 1
  holdoff := fieldAt block 0xE6 2
  nodeLabel := BitVec.ofNat 32 (fieldAt block 0xE8 4)

/-- Check of one ring entry (R186): the base is a multiple of 32 and the length is 4 to 4096. -/
def RingConfig.valid (c : RingConfig) : Bool := c.base.toNat % 32 == 0 && 4 ≤ c.length && c.length ≤ 4096

/-- The checks of R186. The interrupt holdoff and the node label pass whatever their value. -/
def ConfigCopy.valid (c : ConfigCopy) : Bool :=
  c.command.valid && c.send.toList.all RingConfig.valid && c.landing.toList.all RingConfig.valid
    && c.completion.valid
    && [c.weight1, c.weight2, c.weight3].all (fun w => 1 ≤ w && w ≤ 16)
    && c.burstLimit ≤ 64 && 1 ≤ c.threshold && c.threshold ≤ 255

/-! ## Ring records -/

/-- The custody byte, at offset 1Fh, reads PART. -/
def recordIsPart (record : List Byte) : Bool := fieldAt record 0x1F 1 == custodyPart.toNat

/-- A send record by its kind code (R195). -/
def readSendRecord (record : List Byte) : SendRecord :=
  match fieldAt record 0 1 with
  | 1 => .head
      { stream := fieldAt record 1 1, fragmentCount := fieldAt record 2 1
        mark := BitVec.ofNat 16 (fieldAt record 4 2), tag := BitVec.ofNat 32 (fieldAt record 8 4)
        totalLength := fieldAt record 0x0C 4, address := BitVec.ofNat 64 (fieldAt record 0x10 8)
        length := fieldAt record 0x18 4 }
  | 2 => .fragment (BitVec.ofNat 64 (fieldAt record 8 8)) (fieldAt record 0x10 4)
  | k => .other k

/-- A landing record's address and length; DL reads no other field (R125). -/
def readLandingRecord (record : List Byte) : Addr × Nat :=
  (BitVec.ofNat 64 (fieldAt record 0 8), fieldAt record 8 4)

/-- A command record's code and parameters (R195). -/
def readCommand (record : List Byte) : Command :=
  match fieldAt record 0 1 with
  | 1 => .linkStart (fieldAt record 0x08 1) (fieldAt record 0x0A 2)
  | 2 => .linkStop
  | 3 => .streamOpen (fieldAt record 0x08 1) (fieldAt record 0x09 1) (fieldAt record 0x0A 1)
      (fieldAt record 0x0B 1) (fieldAt record 0x0C 1) (fieldAt record 0x10 4)
  | 4 => .streamClose (fieldAt record 0x08 1)
  | 5 => .streamQuery (fieldAt record 0x08 1) (BitVec.ofNat 64 (fieldAt record 0x10 8))
  | 6 => .linkQuery (fieldAt record 0x08 1 % 2 == 1) (BitVec.ofNat 64 (fieldAt record 0x10 8))
  | 7 => .setTimers (fieldAt record 0x08 1) (fieldAt record 0x09 1) (fieldAt record 0x0A 2)
      (fieldAt record 0x0C 2) (fieldAt record 0x0E 2) (fieldAt record 0x10 2)
  | k => .unknown k

/-- A command record's tag. -/
def readTag (record : List Byte) : BitVec 32 := BitVec.ofNat 32 (fieldAt record 4 4)

/-! ## Parcels (R196) -/

/-- One step of the check word for one bit: shift right, and add the reversed generator when a 1 falls out. -/
def crcBit (c : BitVec 32) : BitVec 32 := if c.getLsbD 0 then (c >>> 1) ^^^ 0xEDB88320#32 else c >>> 1

/-- The check word's register after one more byte, taken least significant bit first. -/
def crcByte (c : BitVec 32) (b : Byte) : BitVec 32 :=
  crcBit (crcBit (crcBit (crcBit (crcBit (crcBit (crcBit (crcBit (c ^^^ b.setWidth 32))))))))

/-- The check word of some bytes: generator 04C11DB7h, starting at FFFFFFFFh, inverted at the end. -/
def checkWord (bytes : List Byte) : BitVec 32 := ~~~(bytes.foldl crcByte 0xFFFFFFFF#32)

/-- A parcel's bytes before its check word. -/
def parcelBody : Parcel → List Byte
  | .data seq d =>
      leBytes 1 0x01 ++ leBytes 1 d.stream ++ leBytes 2 seq.toNat ++ leBytes 2 d.index
        ++ leBytes 1 (flagBit d.first 0 + flagBit d.last 1) ++ leBytes 1 0 ++ leBytes 2 d.payload.length
        ++ leBytes 2 d.mark.toNat ++ d.payload
  | .grant seq g =>
      leBytes 1 0x02 ++ leBytes 1 g.stream ++ leBytes 2 seq.toNat ++ leBytes 1 g.allotment
        ++ leBytes 1 g.credits ++ leBytes 2 0 ++ leBytes 4 g.maxMessage
  | .withdraw seq stream => leBytes 1 0x03 ++ leBytes 1 stream ++ leBytes 2 seq.toNat ++ leBytes 4 0
  | .cut seq stream => leBytes 1 0x04 ++ leBytes 1 stream ++ leBytes 2 seq.toNat ++ leBytes 4 0
  | .void seq => leBytes 1 0x05 ++ leBytes 1 0 ++ leBytes 2 seq.toNat
  | .ack n => leBytes 1 0x11 ++ leBytes 1 0 ++ leBytes 2 n.toNat
  | .retry n => leBytes 1 0x12 ++ leBytes 1 0 ++ leBytes 2 n.toNat
  | .hello h =>
      leBytes 1 0x13 ++ leBytes 1 h.epoch ++ leBytes 1 h.seen ++ leBytes 1 h.code ++ leBytes 2 h.window
        ++ leBytes 2 0 ++ leBytes 4 h.label.toNat

/-- A parcel as the framer sends it: its body and its check word, least significant byte first. -/
def parcelBytes (p : Parcel) : List Byte := parcelBody p ++ leBytes 4 (checkWord (parcelBody p)).toNat

/-- The fields of a body that has passed the check word, or none where the kind is unknown, the length does
not agree with the kind, or a DATA payload length is 0 or above `size`, the payload size in force (R29). -/
def readBody (size : Nat) (b : List Byte) : Option Parcel :=
  let seq : Seq := BitVec.ofNat 12 (fieldAt b 2 2)
  match fieldAt b 0 1 with
  | 0x01 =>
      let n := fieldAt b 8 2
      if b.length = 12 + n ∧ 1 ≤ n ∧ n ≤ size then
        some (.data seq
          { stream := fieldAt b 1 1, index := fieldAt b 4 2 % 8192
            first := fieldAt b 6 1 % 2 == 1, last := fieldAt b 6 1 / 2 % 2 == 1
            mark := BitVec.ofNat 16 (fieldAt b 0x0A 2), payload := b.drop 12 })
      else none
  | 0x02 =>
      if b.length = 12 then
        some (.grant seq
          { stream := fieldAt b 1 1, allotment := fieldAt b 4 1, credits := fieldAt b 5 1
            maxMessage := fieldAt b 8 4 })
      else none
  | 0x03 => if b.length = 8 then some (.withdraw seq (fieldAt b 1 1)) else none
  | 0x04 => if b.length = 8 then some (.cut seq (fieldAt b 1 1)) else none
  | 0x05 => if b.length = 4 then some (.void seq) else none
  | 0x11 => if b.length = 4 then some (.ack seq) else none
  | 0x12 => if b.length = 4 then some (.retry seq) else none
  | 0x13 =>
      if b.length = 12 then
        some (.hello
          { epoch := fieldAt b 1 1, seen := fieldAt b 2 1, code := fieldAt b 3 1, window := fieldAt b 4 2
            label := BitVec.ofNat 32 (fieldAt b 8 4) })
      else none
  | _ => none

/-- The framer's check of received bytes (R29, R196): the parcel, or none for a bad parcel. -/
def readParcel (size : Nat) (bytes : List Byte) : Option Parcel :=
  let body := bytes.take (bytes.length - 4)
  if bytes.length < 8 then none
  else if fieldAt bytes (bytes.length - 4) 4 = (checkWord body).toNat then readBody size body
  else none

/-! ## Completion records -/

/-- The record's kind code. -/
def Record.kindCode : Record → Nat
  | .send .. => 0x01 | .message .. => 0x02 | .landing .. => 0x03 | .command .. => 0x04
  | .linkUp .. => 0x10 | .linkDown .. => 0x11 | .linkProtocolError .. => 0x12
  | .streamOffered .. => 0x20 | .streamEnded .. => 0x21 | .streamProtocolError .. => 0x22
  | .landingEmpty .. => 0x30

/-- The record's status byte; event records carry 00h. -/
def Record.statusCode : Record → Nat
  | .send _ _ _ st _ => st.code
  | .message _ m => m.status.code
  | .landing .. => Status.badRecord.code
  | .command _ _ st => st.code
  | _ => 0

/-- The fields from offset 02h on. -/
def Record.fields : Record → List Byte
  | .send ring headIndex tag _ total =>
      leBytes 1 ring ++ leBytes 1 0 ++ leBytes 2 headIndex ++ leBytes 2 0 ++ leBytes 4 tag.toNat
        ++ leBytes 4 total
  | .message ring m =>
      leBytes 1 m.stream.val ++ leBytes 1 ring.val ++ leBytes 2 m.firstSlot ++ leBytes 2 m.lastSlot
        ++ leBytes 4 m.length ++ leBytes 2 m.mark.toNat
  | .landing ring slot length => leBytes 1 0 ++ leBytes 1 ring.val ++ leBytes 2 slot ++ leBytes 2 0 ++ leBytes 4 length
  | .command tag code _ => leBytes 1 code ++ leBytes 5 0 ++ leBytes 4 tag.toNat
  | .linkUp cause count size w label | .linkDown cause count size w label =>
      leBytes 1 cause.code ++ leBytes 1 count ++ leBytes 2 size ++ leBytes 2 w ++ leBytes 4 label.toNat
  | .linkProtocolError cause count => leBytes 1 cause.code ++ leBytes 1 count
  | .streamOffered i st size => leBytes 1 i.val ++ leBytes 1 st.code ++ leBytes 4 0 ++ leBytes 4 size
  | .streamEnded i st => leBytes 1 i.val ++ leBytes 1 st.code
  | .streamProtocolError i cause count => leBytes 1 i.val ++ leBytes 1 cause.code ++ leBytes 1 count
  | .landingEmpty ring => leBytes 1 0 ++ leBytes 1 ring.val

/-- The 32 bytes of a record written under a serial: the kind at 00h, the status at 01h, the serial at 1Eh. -/
def Record.bytes (r : Record) (serial : Nat) : List Byte :=
  padTo 30 (leBytes 1 r.kindCode ++ leBytes 1 r.statusCode ++ r.fields) ++ leBytes 2 serial

/-! ## Registers -/

/-- IDENT: vendor 5B10h, part 640h, revision 1h. -/
def identValue : BitVec 32 := 0x5B106401

/-- What a read of the 32-bit register at an offset of the window returns (R181); NOTIFY and unused offsets
read 0. A read changes nothing. -/
def readRegister (p : Part) (offset : BitVec 12) : BitVec 32 :=
  match offset.toNat with
  | 0x00 => identValue
  | 0x04 => BitVec.ofNat 32 (flagBit p.hi.enable 0)
  | 0x08 => BitVec.ofNat 32 (p.hi.deviceState.code + 256 * p.hi.faultCause.code)
  | 0x0C => p.hi.event.setWidth 32
  | 0x10 => p.hi.intMask.setWidth 32
  | 0x14 => p.hi.configLo
  | 0x18 => p.hi.configHi
  | _ => 0

end Sys2Proof.Machine
end

