-- ==== Sys2Proof/Machine/Ops.lean ====
section
/-! DEFINITION. The named operations over the state's tables: stream entries, send contexts, landing rings,
consumer rings, inbound queues, host accesses in flight and the link counters. -/

namespace Sys2Proof.Machine

/-! ## Timers -/

/-- The timer is running. -/
def Timer.isRunning : Timer → Bool
  | .idle => false
  | .running _ => true

/-- A timer that is started if it is idle and runs on otherwise (R49, R55). -/
def Timer.startIfIdle (t : Timer) (interval : Nat) : Timer :=
  match t with
  | .idle => .running interval
  | .running n => .running n

/-! ## The stream table and the inbound queues -/

/-- Stream `i`'s entry. -/
def Part.stream (p : Part) (i : Fin 64) : StreamEntry := p.streams.get i

/-- Stream `i`'s entry changed by `f`. -/
def Part.modStream (p : Part) (i : Fin 64) (f : StreamEntry → StreamEntry) : Part :=
  { p with streams := p.streams.modify i f }

/-- Stream `i`'s inbound queue. -/
def Part.queue (p : Part) (i : Fin 64) : List InboundEntry := p.ib.queues.get i

/-- Stream `i`'s inbound queue replaced. -/
def Part.setQueue (p : Part) (i : Fin 64) (q : List InboundEntry) : Part :=
  { p with ib := { p.ib with queues := p.ib.queues.set i q } }

/-- Whether an inbound entry is a DATA reference. -/
def InboundEntry.isData : InboundEntry → Bool
  | .data _ => true
  | _ => false

/-! ## Send contexts -/

/-- Send context `c`. -/
def Part.context (p : Part) (c : Fin 32) : Context := p.sf.contexts.get c

/-- Send context `c` changed by `f`. -/
def Part.modContext (p : Part) (c : Fin 32) (f : Context → Context) : Part :=
  { p with sf := { p.sf with contexts := p.sf.contexts.modify c f } }

/-- The send ring a context belongs to: contexts 8r to 8r + 7 are ring r's (R93). -/
def contextRing (c : Fin 32) : Fin 4 := ⟨c.val / 8, by omega⟩

/-- The `k`-th context of a send ring (R93). -/
def ringContext (r : Fin 4) (k : Fin 8) : Fin 32 := ⟨8 * r.val + k.val, by omega⟩

/-- The contexts of a send ring, lowest number first. -/
def ringContexts (r : Fin 4) : List (Fin 32) := (numbers 8).map (ringContext r)

/-! ## Landing rings -/

/-- Landing ring `r`'s state in DL. -/
def Part.landRing (p : Part) (r : Fin 8) : LandingRing := p.dl.rings.get r

/-- Landing ring `r`'s state changed by `f`. -/
def Part.modLandRing (p : Part) (r : Fin 8) (f : LandingRing → LandingRing) : Part :=
  { p with dl := { p.dl with rings := p.dl.rings.modify r f } }

/-! ## Consumer rings -/

/-- A consumer ring's position, state and renotify flag. -/
def Part.consumer (p : Part) : RingId → ConsumerRing
  | .command => p.rings.command
  | .send r => p.rings.send.get r
  | .landing r => p.rings.landing.get r

/-- A consumer ring changed by `f`. -/
def Part.modConsumer (p : Part) (ring : RingId) (f : ConsumerRing → ConsumerRing) : Part :=
  match ring with
  | .command => { p with rings := { p.rings with command := f p.rings.command } }
  | .send r => { p with rings := { p.rings with send := p.rings.send.modify r f } }
  | .landing r => { p with rings := { p.rings with landing := p.rings.landing.modify r f } }

/-- A consumer ring's place and length, from the configuration copy. -/
def Part.ringConfig (p : Part) : RingId → RingConfig
  | .command => p.hi.config.command
  | .send r => p.hi.config.send.get r
  | .landing r => p.hi.config.landing.get r

/-- The address of record `i` of a ring: 32 × i bytes past the base (R87), modulo 2^64 (log entry 28). -/
def recordAddress (c : RingConfig) (i : Nat) : Addr := c.base + BitVec.ofNat 64 (32 * i)

/-- The index after `i` in a ring of `length` records. -/
def nextIndex (i length : Nat) : Nat := if i + 1 < length then i + 1 else 0

/-! ## Host accesses -/

/-- The access of a kind that is in flight, if there is one. -/
def Part.access? (p : Part) (k : AccessKind) : Option Access := p.hi.accesses.find? fun a => decide (a.kind = k)

/-- HI issues an access (R188): it is in flight from now on. -/
def Part.issue (p : Part) (a : Access) : Part := { p with hi := { p.hi with accesses := p.hi.accesses ++ [a] } }

/-- HI issues several accesses, in order. -/
def Part.issueAll (p : Part) (as : List Access) : Part :=
  { p with hi := { p.hi with accesses := p.hi.accesses ++ as } }

/-- The access of a kind has ended: it is no longer in flight and its timer has stopped. -/
def Part.endAccess (p : Part) (k : AccessKind) : Part :=
  { p with hi := { p.hi with accesses := p.hi.accesses.filter fun a => decide (a.kind ≠ k) } }

/-- The part is RUNNING. -/
def Part.running (p : Part) : Bool := decide (p.hi.deviceState = .running)

/-- The host access of kind `k` that is in flight ends; if there is none nothing happens (log entry 2). In the device state `st` the end is delivered to the unit that asked; in any other it is delivered to none (R189). -/
def Part.onAccessEnd (p : Part) (k : AccessKind) (st : DeviceState) (deliver : Part → Part) : Part :=
  match p.access? k with
  | none => p
  | some _ => if p.hi.deviceState = st then deliver (p.endAccess k) else p.endAccess k

/-- Whether a read's end answers a read of `length` bytes: its data has that length, or it failed. -/
def readAnswers (r : ReadEnd) (length : Nat) : Bool :=
  match r with
  | .data bytes => decide (bytes.length = length)
  | .failed => true

/-- As `onAccessEnd`, for a read: data of another length than asked for is no answer to it (log entry 18). -/
def Part.onReadEnd (p : Part) (k : AccessKind) (result : ReadEnd) (st : DeviceState) (deliver : Part → Part) :
    Part :=
  match p.access? k with
  | none => p
  | some a => if readAnswers result a.length then p.onAccessEnd k st deliver else p

/-! ## Host reads of a gathering or a refetch -/

/-- The `k`-th host read has ended. -/
def endRead (reads : List HostRead) (k : Nat) (result : ReadEnd) : List HostRead :=
  reads.modify k fun r => { r with result := some result }

/-- Every read has ended (R61, R116). -/
def readsEnded (reads : List HostRead) : Bool := reads.all fun r => r.result.isSome

/-- The payload in message order, if every read succeeded. -/
def readsPayload : List HostRead → Option (List Byte)
  | [] => some []
  | r :: rest =>
    match r.result, readsPayload rest with
    | some (.data bytes), some more => some (bytes ++ more)
    | _, _ => none

/-- The host reads of the bytes from `offset` on, `length` of them, of a message whose fragments laid end to end
are `fragments`: one read for each fragment the bytes touch (R61, R115), at an address modulo 2^64 (log entry 28). -/
def payloadReads : List Fragment → Nat → Nat → List HostRead
  | [], _, _ => []
  | f :: rest, offset, length =>
    if length = 0 then []
    else if f.length ≤ offset then payloadReads rest (offset - f.length) length
    else
      let n := min length (f.length - offset)
      ⟨f.address + BitVec.ofNat 64 offset, n, none⟩ :: payloadReads rest 0 (length - n)

/-- The accesses for some host reads, numbered from `k`. -/
def readAccesses (kind : Nat → AccessKind) : Nat → List HostRead → List Access
  | _, [] => []
  | k, r :: rest => ⟨kind k, r.address, r.length, []⟩ :: readAccesses kind (k + 1) rest

/-! ## Link counters -/

/-- The largest value of a 32-bit counter, where it stops (R44). -/
def counterMax : Nat := 4294967295

/-- The link counters changed by `f`. -/
def Part.modCounters (p : Part) (f : Counters → Counters) : Part :=
  { p with lk := { p.lk with counters := f p.lk.counters } }

def Part.countParcelSent (p : Part) : Part :=
  p.modCounters fun c => { c with parcelsSent := countUp counterMax c.parcelsSent }

def Part.countReplayed (p : Part) : Part :=
  p.modCounters fun c => { c with parcelsReplayed := countUp counterMax c.parcelsReplayed }

def Part.countRetrySent (p : Part) : Part :=
  p.modCounters fun c => { c with retriesSent := countUp counterMax c.retriesSent }

def Part.countRetryReceived (p : Part) : Part :=
  p.modCounters fun c => { c with retriesReceived := countUp counterMax c.retriesReceived }

def Part.countBadParcel (p : Part) : Part :=
  p.modCounters fun c => { c with badParcels := countUp counterMax c.badParcels }

def Part.countDuplicate (p : Part) : Part :=
  p.modCounters fun c => { c with duplicates := countUp counterMax c.duplicates }

def Part.countStaleAck (p : Part) : Part :=
  p.modCounters fun c => { c with staleAcks := countUp counterMax c.staleAcks }

def Part.countProtocolError (p : Part) : Part :=
  p.modCounters fun c => { c with protocolErrors := countUp counterMax c.protocolErrors }

def Part.countLinkFault (p : Part) : Part :=
  p.modCounters fun c => { c with linkFaults := countUp counterMax c.linkFaults }

/-- Each counter reduced by the copied value (R44). -/
def Counters.minus (c d : Counters) : Counters where
  parcelsSent := c.parcelsSent - d.parcelsSent
  parcelsReplayed := c.parcelsReplayed - d.parcelsReplayed
  retriesSent := c.retriesSent - d.retriesSent
  retriesReceived := c.retriesReceived - d.retriesReceived
  badParcels := c.badParcels - d.badParcels
  duplicates := c.duplicates - d.duplicates
  staleAcks := c.staleAcks - d.staleAcks
  protocolErrors := c.protocolErrors - d.protocolErrors
  linkFaults := c.linkFaults - d.linkFaults

/-! ## What a step does to the state that holds the queue -/

/-- A command's effect on the part, the queue left as it is. -/
def State.apply (s : State) (f : Part → Part) : Host.Outcome State Fault Refusal :=
  .next { s with toPart := f s.toPart }

end Sys2Proof.Machine
end

