-- ==== Sys2Proof/Machine/Flags.lean ====
section
/-! DEFINITION. The EVENT register and the interrupt, the event flags, protocol errors, the part's entry to
FAULT, and the resets. -/

namespace Sys2Proof.Machine

/-! ## EVENT, INT_MASK and the interrupt (R161, R162) -/

/-- EVENT.COMPLETION. -/
def eventCompletion : BitVec 3 := 1
/-- EVENT.NOTIFY_ERROR. -/
def eventNotifyError : BitVec 3 := 2
/-- EVENT.FAULT. -/
def eventFault : BitVec 3 := 4

/-- The interrupt condition: an EVENT bit is set whose mask bit is 0 (R162). -/
def interruptCondition (event mask : BitVec 3) : Bool := event &&& ~~~mask != 0

/-- EVENT and INT_MASK take new values; one interrupt message is sent if the condition changes from not holding
to holding (R162). -/
def Part.setEventMask (p : Part) (event mask : BitVec 3) : Part :=
  { p with hi := { p.hi with
      event := event
      intMask := mask
      interrupts :=
        if !interruptCondition p.hi.event p.hi.intMask && interruptCondition event mask then p.hi.interrupts + 1
        else p.hi.interrupts } }

/-- A cause sets an EVENT bit (R161). -/
def Part.raise (p : Part) (bit : BitVec 3) : Part := p.setEventMask (p.hi.event ||| bit) p.hi.intMask

/-! ## Protocol errors -/

/-- A protocol error on a stream (R21). -/
def Part.streamProtocolError (p : Part) (i : Fin 64) (cause : ProtocolCause) : Part :=
  (p.modStream i fun e =>
    { e with protocolFlag := true, protocolCause := cause, protocolCount := countUp 255 e.protocolCount }).countProtocolError

/-- A link-wide protocol error (R30). -/
def Part.linkProtocolError (p : Part) (cause : ProtocolCause) : Part :=
  Part.countProtocolError { p with lk := { p.lk with
    protocolFlag := true, protocolCause := cause, protocolCount := countUp 255 p.lk.protocolCount } }

/-! ## Event flags (R154) -/

/-- Any of a stream's three event flags is set. -/
def StreamEntry.anyFlag (e : StreamEntry) : Bool := e.endedFlag || e.offeredFlag || e.protocolFlag

/-- Any event flag of the part is set. -/
def Part.anyFlag (p : Part) : Bool :=
  p.lk.eventFlag || p.lk.protocolFlag || p.streams.toList.any StreamEntry.anyFlag
    || p.dl.rings.toList.any LandingRing.emptyFlag

/-! ## FAULT (R45, R69, R145, R163, R189, R190) -/

/-- A read in flight that is no longer wanted (R63 to R65, R68, R69). -/
def ReplaySlot.markDropped : ReplaySlot → ReplaySlot
  | .reading seq _ reads => .reading seq false reads
  | s => s

/-- HI takes the part into FAULT: the cause is recorded, EVENT.FAULT is set, LK stops and goes OFFLINE without a
teardown, SQ empties its replay list, CQ's and DL's timers stop, and everything else stays as it stands. -/
def Part.enterFault (p : Part) (cause : FaultCause) : Part :=
  { p with
    hi := { (p.raise eventFault).hi with deviceState := .fault, faultCause := cause }
    lk := { p.lk with
      state := .offline, helloDue := .none, helloTimer := .idle, holdoffTimer := .idle, teardown := none
      helloExit := none }
    sq := { p.sq with
      replayTimer := .idle, ackTimer := .idle, replay := [], next := 0, rewind := none, replayCount := 0
      slot := p.sq.slot.markDropped }
    cq := { p.cq with holdoffTimer := .idle }
    dl := { p.dl with rings := p.dl.rings.map fun r => { r with gapTimer := .idle } } }

/-! ## Resets (R191 to R193) -/

/-- A function reset: every unit takes its reset value; CONFIG_LO, CONFIG_HI and INT_MASK are kept; the accesses
in flight are kept apart until they end, and those that timed out until their answers come. -/
def Part.functionReset (p : Part) : Part :=
  { hi :=
      { configLo := p.hi.configLo, configHi := p.hi.configHi, intMask := p.hi.intMask
        stale := p.hi.stale ++ p.hi.accesses, timedOut := p.hi.timedOut, interrupts := p.hi.interrupts }
    choice := p.choice }

/-- A power-on reset: every unit takes its reset value. The model's counter of free values is not the part's. -/
def Part.powerOnReset (p : Part) : Part := { choice := p.choice }

end Sys2Proof.Machine
end

