-- ==== Sys2Proof/Machine/Sequence.lean ====
section
/-! DEFINITION. The sequencing unit's own state: sequence numbers, the receive side's notes, the replay list, the
rewind position and the replay staging slot (Sequencing, Acknowledgement and Replay). -/

namespace Sys2Proof.Machine

/-! ## Sequence numbers (R46) -/

/-- The forward distance from `a` to `b`. -/
def forward (a b : Seq) : Nat := (b - a).toNat

/-- The oldest entry's number, or the next sequence number where the list is empty. -/
def Sequencing.oldest (q : Sequencing) : Seq :=
  match q.replay with
  | [] => q.next
  | e :: _ => e.seq

/-- `n` is within the replay list. -/
def Sequencing.within (q : Sequencing) (n : Seq) : Bool :=
  decide (forward q.oldest n ≤ forward q.oldest q.next)

/-- `n` is behind the expected number: 1 to `w` steps before it. -/
def Sequencing.behind (q : Sequencing) (w : Nat) (n : Seq) : Bool :=
  decide (1 ≤ forward n q.expected) && decide (forward n q.expected ≤ w)

/-! ## The receive side -/

/-- Noting an ACK (R52). -/
def Note.withAck : Note → Note
  | .none => .ack
  | n => n

/-- Noting a RETRY (R52). -/
def Note.withRetry (_ : Note) : Note := .retry

/-- SQ notes an ACK. -/
def Part.noteAck (p : Part) : Part := { p with sq := { p.sq with note := p.sq.note.withAck } }

/-- Acceptance of the parcel numbered E: E advances, the retry-pending flag clears, and the acceptance counts
toward acknowledgement (R48, R49). -/
def Part.acceptNumber (p : Part) : Part :=
  let count := countUp 255 p.sq.unacknowledged
  { p with sq := { p.sq with
      expected := p.sq.expected + 1
      retryPending := false
      unacknowledged := count
      note := if 8 ≤ count then p.sq.note.withAck else p.sq.note
      ackTimer := if 8 ≤ count then p.sq.ackTimer else p.sq.ackTimer.startIfIdle p.cm.timers.ackDelay } }

/-- A duplicate is discarded: an ACK is noted and the duplicates counter counts it (R50). -/
def Part.duplicate (p : Part) : Part := p.noteAck.countDuplicate

/-- A parcel ahead of E, or a bad parcel in UP: a RETRY is noted unless one is already called for (R51). -/
def Part.missedParcel (p : Part) : Part :=
  if p.sq.retryPending then p
  else { p with sq := { p.sq with note := p.sq.note.withRetry, retryPending := true } }

/-! ## The send side -/

/-- The entry of the replay list that bears a number. -/
def Sequencing.entry? (q : Sequencing) (n : Seq) : Option ReplayEntry := q.replay.find? fun e => decide (e.seq = n)

/-- SQ numbers a sequenced parcel at its first transmission and appends its entry (R55). -/
def Part.number (p : Part) (content : Content) : Part :=
  { p with sq := { p.sq with
      next := p.sq.next + 1
      replay := p.sq.replay ++ [⟨p.sq.next, content⟩]
      replayTimer :=
        if p.sq.replay.isEmpty then .running p.cm.timers.replayTimeout else p.sq.replayTimer } }

/-- The rewind position after the entry at `n` has been sent again: the next entry, or none past the newest
(R60). -/
def Sequencing.rewindAfter (q : Sequencing) (n : Seq) : Option Seq := if n + 1 = q.next then none else some (n + 1)

/-- A refetch for one of these numbers is dropped, or its payload discarded if it has come (R63 to R65). -/
def ReplaySlot.dropIf (s : ReplaySlot) (unwanted : Seq → Bool) : ReplaySlot :=
  match s with
  | .reading seq w reads => if unwanted seq then .reading seq false reads else .reading seq w reads
  | .ready seq payload => if unwanted seq then .empty else .ready seq payload
  | .empty => .empty

/-- The entries before `n`, oldest first, where `n` is within the list. -/
def Sequencing.before (q : Sequencing) (n : Seq) : List ReplayEntry := q.replay.take (forward q.oldest n)

/-- The contexts of the LIVE DATA entries before `n`, in the order of removal (R56). -/
def Sequencing.acknowledgedContexts (q : Sequencing) (n : Seq) : List (Fin 32) :=
  (q.before n).filterMap fun e =>
    match e.content with
    | .data c _ _ _ _ _ _ _ => some c
    | _ => none

/-- SQ's part of an acknowledgement of `n`, which is within the list (R56, R63). -/
def Part.removeBefore (p : Part) (n : Seq) : Part :=
  if (p.sq.before n).isEmpty then p
  else
    let rest := p.sq.replay.drop (forward p.sq.oldest n)
    { p with sq := { p.sq with
        replay := rest
        replayCount := 0
        replayTimer := if rest.isEmpty then .idle else .running p.cm.timers.replayTimeout
        rewind :=
          match p.sq.rewind with
          | none => none
          | some w =>
            if rest.isEmpty then none
            else if forward p.sq.oldest w < forward p.sq.oldest n then some n else some w
        slot := p.sq.slot.dropIf fun seq => (p.sq.before n).any fun e => decide (e.seq = seq) } }

/-- SQ turns every LIVE entry of a context VOID, and the refetch of one of them is dropped (R64, R66), past the replay
limit too (R59, log entry 34). -/
def Part.voidEntries (p : Part) (c : Fin 32) : Part :=
  let mine (e : ReplayEntry) : Bool :=
    match e.content with
    | .data c' _ _ _ _ _ _ _ => decide (c' = c)
    | _ => false
  { p with sq := { p.sq with
      replay := p.sq.replay.map fun e => if mine e then { e with content := .void } else e
      slot := p.sq.slot.dropIf fun seq => p.sq.replay.any fun e => mine e && decide (e.seq = seq) } }

/-- The rewind position is set to `n`, and a refetch for any other entry is dropped (R58, R59, R65). -/
def Part.rewindTo (p : Part) (n : Seq) : Part :=
  { p with sq := { p.sq with rewind := some n, slot := p.sq.slot.dropIf fun seq => decide (seq ≠ n) } }

/-- SQ's state on the link's entry to UP (R37, R53): both numbers 0, nothing noted, nothing listed. -/
def Part.beginSequencing (p : Part) : Part :=
  { p with sq := { p.sq with
      expected := 0, unacknowledged := 0, ackTimer := .idle, retryPending := false, note := .none
      next := 0, replay := [], rewind := none, replayTimer := .idle, replayCount := 0 } }

/-- SQ's part of a teardown (R53, R68). A READY slot becomes EMPTY, a READING one is dropped. -/
def Part.teardownSequencing (p : Part) : Part :=
  { p with sq := { p.sq with
      unacknowledged := 0, ackTimer := .idle, retryPending := false, note := .none
      next := 0, replay := [], rewind := none, replayTimer := .idle, replayCount := 0
      slot := p.sq.slot.dropIf fun _ => true } }

end Sys2Proof.Machine
end

