-- ==== Sys2Proof/Machine/Streams.lean ====
section
/-! DEFINITION. The stream controller's own operations: the control queue, reservation and release, the quiet
condition and the exits from CLOSING and WINDING (Streams; Credits and the Inbound Store). -/

namespace Sys2Proof.Machine

/-! ## The command in progress, as SC and LK report to it -/

/-- The completion status of the command in progress is fixed and its completion is offered (R166). -/
def Part.completeCommand (p : Part) (status : Status) : Part :=
  { p with cm := { p.cm with command := p.cm.command.map fun c => { c with phase := .offered status } } }

/-- The command in progress is a STREAM_CLOSE of stream `i` that waits (R172). -/
def Part.closeInProgress (p : Part) (i : Fin 64) : Bool :=
  match p.cm.command with
  | some ⟨.streamClose n, _, .acting⟩ => decide (n = i.val)
  | _ => false

/-- SC reports to CM how a waiting STREAM_CLOSE of stream `i` ends. -/
def Part.reportClose (p : Part) (i : Fin 64) (status : Status) : Part :=
  if p.closeInProgress i then p.completeCommand status else p

/-! ## The control queue (R23 to R25) -/

def ControlEntry.isGrantOf (i : Fin 64) : ControlEntry → Bool
  | .grant j _ _ _ => decide (j = i)
  | _ => false

def ControlEntry.isWithdrawOf (i : Fin 64) : ControlEntry → Bool
  | .withdraw j => decide (j = i)
  | _ => false

def ControlEntry.isCutOf (i : Fin 64) : ControlEntry → Bool
  | .cut j => decide (j = i)
  | _ => false

/-- A GRANT of stream `i` waits in the control queue. -/
def Part.grantWaits (p : Part) (i : Fin 64) : Bool := p.control.any (ControlEntry.isGrantOf i)

/-- A WITHDRAW of stream `i` waits in the control queue. -/
def Part.withdrawWaits (p : Part) (i : Fin 64) : Bool := p.control.any (ControlEntry.isWithdrawOf i)

/-- A CUT of stream `i` waits in the control queue. -/
def Part.cutWaits (p : Part) (i : Fin 64) : Bool := p.control.any (ControlEntry.isCutOf i)

/-- The credits of a waiting GRANT of stream `i` raised by `n`; its other fields and its place are kept. -/
def ControlEntry.merge (i : Fin 64) (n : Nat) : ControlEntry → ControlEntry
  | .grant j a c m => if j = i then .grant j a (c + n) m else .grant j a c m
  | e => e

/-- A request to queue a GRANT: merged into a waiting GRANT, dropped behind a waiting WITHDRAW, or appended
(R24). -/
def Part.queueGrant (p : Part) (i : Fin 64) (allotment credits maxMessage : Nat) : Part :=
  if p.grantWaits i then { p with control := p.control.map (ControlEntry.merge i credits) }
  else if p.withdrawWaits i then p
  else { p with control := p.control ++ [.grant i allotment credits maxMessage] }

/-- IB's request for a return GRANT, taken only while the stream is OPEN (R24, R79). -/
def Part.queueReturnGrant (p : Part) (i : Fin 64) (credits : Nat) : Part :=
  if (p.stream i).state = .opened then p.queueGrant i (p.stream i).allotment credits (p.stream i).maxInbound else p

/-- A request to queue a WITHDRAW: the stream's waiting GRANT and CUT go, and the WITHDRAW joins the tail (R25).
A WITHDRAW already waiting keeps its place and no second one joins (R23, log entry 10). -/
def Part.queueWithdraw (p : Part) (i : Fin 64) : Part :=
  let kept := p.control.filter fun e => !(e.isGrantOf i || e.isCutOf i)
  { p with control := if p.withdrawWaits i then kept else kept ++ [.withdraw i] }

/-- A request to queue a CUT, taken only while the stream is OPEN and no WITHDRAW or CUT of it waits (R25). -/
def Part.queueCut (p : Part) (i : Fin 64) : Part :=
  if (p.stream i).state = .opened && !p.withdrawWaits i && !p.cutWaits i then { p with control := p.control ++ [.cut i] }
  else p

/-- The stream's waiting GRANT is removed (R14). -/
def Part.removeGrant (p : Part) (i : Fin 64) : Part :=
  { p with control := p.control.filter fun e => !e.isGrantOf i }

/-! ## Reservation and release (R72, R73, R80) -/

/-- IB reserves an allotment for an opening stream (R72). -/
def Part.reserve (p : Part) (i : Fin 64) (allotment returnBatch : Nat) : Part :=
  let p := p.modStream i fun e =>
    { e with allotment := allotment, returnBatch := returnBatch, occupancy := 0, pendingReturns := 0 }
  { p with ib := { p.ib with reservedTotal := p.ib.reservedTotal + allotment } }

/-- IB releases a stream's allotment (R73). -/
def Part.release (p : Part) (i : Fin 64) : Part :=
  let held := (p.stream i).allotment
  let p := p.modStream i fun e => { e with allotment := 0, returnBatch := 0, pendingReturns := 0 }
  { p with ib := { p.ib with reservedTotal := p.ib.reservedTotal - held } }

/-- The slots an inbound queue refers to. -/
def dataCount (q : List InboundEntry) : Nat := (q.filter InboundEntry.isData).length

/-- IB discards a stream's inbound queue, markers included, and counts no returns (R80). -/
def Part.discardQueue (p : Part) (i : Fin 64) : Part :=
  let freed := dataCount (p.queue i)
  let p := (p.setQueue i []).modStream i fun e => { e with occupancy := 0 }
  { p with ib := { p.ib with freeCount := p.ib.freeCount + freed } }

/-- IB appends an entry to a stream's inbound queue (R74, R75). -/
def Part.appendInbound (p : Part) (i : Fin 64) (e : InboundEntry) : Part := p.setQueue i (p.queue i ++ [e])

/-! ## Quiet streams, and the exits from CLOSING and WINDING -/

/-- DL holds a claim, or a place in a claim queue, for the stream. -/
def Part.claims (p : Part) (i : Fin 64) : Bool :=
  let ring := p.landRing (p.stream i).landingRing
  decide (ring.holder = some i) || ring.claimQueue.any fun j => decide (j = i)

/-- The quiet condition (R3). -/
def Part.quiet (p : Part) (i : Fin 64) : Bool := (p.stream i).sendLine.isEmpty && !p.claims i

/-- An entry on entering CLOSED: all cleared but the event flags and the protocol cause and count (R2). -/
def StreamEntry.cleared (e : StreamEntry) : StreamEntry :=
  { offeredFlag := e.offeredFlag, endedFlag := e.endedFlag, protocolFlag := e.protocolFlag
    protocolCause := e.protocolCause, protocolCount := e.protocolCount }

/-- An entry on entering OFFERED with an offer's values, its OFFERED flag set (R2, R22, R82). -/
def StreamEntry.offeredWith (e : StreamEntry) (o : Offer) : StreamEntry :=
  { e.cleared with
    state := .offered, peerAllotment := o.allotment, credits := o.credits, peerMaxMessage := o.maxMessage
    offeredFlag := true }

/-- An entry that leaves its old incarnation: OFFERED with a pending offer, CLOSED without one. -/
def StreamEntry.leave (e : StreamEntry) : StreamEntry :=
  match e.offer with
  | some o => e.offeredWith o
  | none => e.cleared

/-- SC tests whether a stream may leave CLOSING (R18) or WINDING (R19), and lets it leave if it may. -/
def Part.exitTest (p : Part) (i : Fin 64) : Part :=
  let e := p.stream i
  match e.state with
  | .closing =>
    if e.withdrawSequenced && e.peerWithdrawSeen && p.quiet i then
      (p.modStream i StreamEntry.leave).reportClose i .ok
    else p
  | .winding =>
    if e.withdrawSequenced && e.markerProcessed && p.quiet i then
      let p := (p.release i).modStream i StreamEntry.leave
      if e.closeWaiting then p.reportClose i .ok else p.modStream i fun e => { e with endedFlag := true }
    else p
  | _ => p

/-- The report that a stream's WITHDRAW has been sequenced (R17). -/
def Part.withdrawSequenced (p : Part) (i : Fin 64) : Part :=
  (p.modStream i fun e => { e with withdrawSequenced := true }).exitTest i

/-- The report that DL has processed a stream's WITHDRAW marker (R17). It comes only while the stream is in
WINDING. -/
def Part.markerReported (p : Part) (i : Fin 64) : Part :=
  if (p.stream i).state = .winding then
    (p.modStream i fun e => { e with markerProcessed := true }).exitTest i
  else p

/-! ## Opening and the pending offer -/

/-- SC applies a STREAM_OPEN that has passed its checks, in CLOSED (R4) and in OFFERED (R5). -/
def Part.openStream (p : Part) (i : Fin 64) (sendRing : Fin 4) (landingRing : Fin 8)
    (allotment returnBatch maxMessage : Nat) : Part :=
  let entered : StreamState := if (p.stream i).state = .offered then .opened else .localOpen
  let p := p.modStream i fun e =>
    { e with state := entered, sendRing := sendRing, landingRing := landingRing, maxInbound := maxMessage }
  (p.reserve i allotment returnBatch).queueGrant i allotment allotment maxMessage

/-- A GRANT for a new incarnation is saved as, or added to, the pending offer (R8). -/
def Part.saveOffer (p : Part) (i : Fin 64) (g : GrantParcel) : Part :=
  match (p.stream i).offer with
  | none => p.modStream i fun e => { e with offer := some ⟨g.allotment, g.credits, g.maxMessage⟩ }
  | some o =>
    let sum := o.credits + g.credits
    let q := p.modStream i fun e => { e with offer := some { o with credits := min o.allotment sum } }
    if o.allotment < sum then q.streamProtocolError i .creditExcess else q

/-- A return GRANT adds its credits to the outbound credits, clamped to the peer allotment (R83). -/
def Part.addCredits (p : Part) (i : Fin 64) (credits : Nat) : Part :=
  let e := p.stream i
  let sum := e.credits + credits
  let q := p.modStream i fun e => { e with credits := min e.peerAllotment sum }
  if e.peerAllotment < sum then q.streamProtocolError i .creditExcess else q

/-- The fields a GRANT records in an entry that holds no peer allotment (R7, R82). -/
def StreamEntry.withGrant (e : StreamEntry) (entered : StreamState) (g : GrantParcel) : StreamEntry :=
  { e with
    state := entered, peerAllotment := g.allotment, peerMaxMessage := g.maxMessage, credits := g.credits
    offeredFlag := true }

/-- A GRANT whose fields are all in range (R6). -/
def GrantValid (g : GrantParcel) : Bool :=
  1 ≤ g.allotment && g.allotment ≤ 128 && 1 ≤ g.credits && g.credits ≤ g.allotment
    && 64 ≤ g.maxMessage && g.maxMessage ≤ 1048576

/-- The allotment an entry has on record: the peer allotment, or the pending offer's; none for a first GRANT
(R6). -/
def StreamEntry.recordedAllotment (e : StreamEntry) : Option Nat :=
  if e.peerAllotment ≠ 0 then some e.peerAllotment else e.offer.map Offer.allotment

/-- SC takes an accepted GRANT (R6 to R8). -/
def Part.takeGrant (p : Part) (i : Fin 64) (g : GrantParcel) : Part :=
  let e := p.stream i
  if e.state = .closing && !e.peerWithdrawSeen then p
  else if !GrantValid g then p.streamProtocolError i .grantInvalid
  else if e.recordedAllotment.any fun a => decide (a ≠ g.allotment) then p.streamProtocolError i .grantMismatch
  else
    match e.state with
    | .closed => p.modStream i fun e => e.withGrant .offered g
    | .localOpen => p.modStream i fun e => e.withGrant .opened g
    | .offered | .opened => p.addCredits i g.credits
    | .closing | .winding | .disrupted => p.saveOffer i g

end Sys2Proof.Machine
end

