-- ==== Sys2Proof/Machine/Sending.lean ====
section
/-! DEFINITION. The send fetcher and the transmit scheduler: send contexts from their records to their outcomes,
the pick of the next DATA parcel, and its gathering (Rings, Custody and Send Contexts; Segmentation and the
Transmitter). -/

namespace Sys2Proof.Machine

/-! ## The data staging slot (R118, R119) -/

/-- A staged parcel is dropped: a READY payload is discarded, a READING slot is left to end. -/
def Staging.drop : Staging → Staging
  | .reading d _ reads => .reading d false reads
  | _ => .empty

/-- The described parcel in the slot. -/
def Staging.parcel? : Staging → Option Described
  | .empty => none
  | .reading d _ _ => some d
  | .ready d _ => some d

/-- TX drops the staged parcel if it is of stream `i`. -/
def Part.dropStagedOfStream (p : Part) (i : Fin 64) : Part :=
  if p.tx.staging.parcel?.any fun d => decide (d.stream = i) then
    { p with tx := { p.tx with staging := p.tx.staging.drop } }
  else p

/-- TX drops the staged parcel if it is of context `c`. -/
def Part.dropStagedOfContext (p : Part) (c : Fin 32) : Part :=
  if p.tx.staging.parcel?.any fun d => decide (d.context = c) then
    { p with tx := { p.tx with staging := p.tx.staging.drop } }
  else p

/-! ## Outcomes (R99, R102 to R105) -/

/-- The context enters COMPLETING with an outcome and joins the send completion line. -/
def Part.completeContext (p : Part) (c : Fin 32) (outcome : Status) : Part :=
  let p := p.modContext c fun x => { x with state := .completing, outcome := some outcome }
  { p with sf := { p.sf with line := p.sf.line ++ [c] } }

/-- The context leaves its stream's send line; when that leaves the line empty, SC tests the quiet condition. -/
def Part.leaveSendLine (p : Part) (c : Fin 32) : Part :=
  match index? 64 (p.context c).stream with
  | none => p
  | some i =>
    let p := p.modStream i fun e => { e with sendLine := e.sendLine.filter fun x => decide (x ≠ c) }
    if (p.stream i).sendLine.isEmpty then p.exitTest i else p

/-- SF decides a context on a send line. The staged parcel of the context is dropped (R118), and for an outcome
other than OK the context's replay entries turn VOID (R66). -/
def Part.decideContext (p : Part) (c : Fin 32) (outcome : Status) : Part :=
  let p := (p.completeContext c outcome).dropStagedOfContext c
  let p := if outcome = .ok then p else p.voidEntries c
  p.leaveSendLine c

/-- The context is on a send line: its state is READY, SENDING or SENT (R99). -/
def Context.undecided (x : Context) : Bool := x.state = .ready || x.state = .sending || x.state = .sent

/-- A failed payload read decides the context HOST_READ_FAULT, if it has no outcome (R103). -/
def Part.hostReadFault (p : Part) (c : Fin 32) : Part :=
  if (p.context c).undecided then p.decideContext c .hostReadFault else p

/-- SF decides some contexts of one stream, in their order. -/
def Part.decideAll (p : Part) (cs : List (Fin 32)) (outcome : Status) : Part :=
  cs.foldl (fun p c => p.decideContext c outcome) p

/-- SQ reports one acknowledged parcel of a context (R101). -/
def Part.acknowledged (p : Part) (c : Fin 32) : Part :=
  let p := p.modContext c fun x => { x with acknowledged := x.acknowledged + 1 }
  let x := p.context c
  if x.state = .sent && x.acknowledged = x.parcelCount then p.decideContext c .ok else p

/-- An acknowledgement of `n`, which is within the list: SQ removes, and SF counts, in order (R56). -/
def Part.acknowledge (p : Part) (n : Seq) : Part :=
  (p.sq.acknowledgedContexts n).foldl Part.acknowledged (p.removeBefore n)

/-! ## Fetching (R94 to R98) -/

/-- The ring's context in FILLING, if any (R93). -/
def Part.filling? (p : Part) (r : Fin 4) : Option (Fin 32) :=
  (ringContexts r).find? fun c => decide ((p.context c).state = .filling)

/-- The ring's lowest-numbered FREE context, if any (R94). -/
def Part.freeContext? (p : Part) (r : Fin 4) : Option (Fin 32) :=
  (ringContexts r).find? fun c => decide ((p.context c).state = .free)

/-- A context joins its ring's fetch order. -/
def Part.joinFetchOrder (p : Part) (c : Fin 32) : Part :=
  { p with sf := { p.sf with fetchOrder := p.sf.fetchOrder.modify (contextRing c) (· ++ [c]) } }

/-- The parcels of a message of `total` bytes at payload size `size`: the quotient rounded up (R98). -/
def parcelCount (total size : Nat) : Nat := (total + size - 1) / size

/-- The first check of R98 that a context fails, if any. -/
def Part.validation (p : Part) (c : Fin 32) : Option Status :=
  let x := p.context c
  if x.fragmentCount < 1 || 16 < x.fragmentCount || x.fragments.any (fun f => f.length = 0) then some .badRecord
  else if (x.fragments.map Fragment.length).sum ≠ x.totalLength then some .lengthMismatch
  else
    match index? 64 x.stream with
    | none => some .streamNotOpen
    | some i =>
      let e := p.stream i
      if e.state ≠ .opened then some .streamNotOpen
      else if e.sendRing ≠ contextRing c then some .wrongRing
      else if e.peerMaxMessage < x.totalLength then some .tooLong
      else none

/-- SF validates a complete context (R98): it enters READY and joins its stream's send line, or COMPLETING. -/
def Part.validate (p : Part) (c : Fin 32) : Part :=
  match p.validation c with
  | some outcome => p.completeContext c outcome
  | none =>
    let p := p.modContext c fun x =>
      { x with state := .ready, parcelCount := parcelCount x.totalLength p.lk.payloadSize }
    match index? 64 (p.context c).stream with
    | none => p
    | some i => p.modStream i fun e => { e with sendLine := e.sendLine ++ [c] }

/-- The context a HEAD record begins (R95). -/
def headContext (position : Nat) (h : HeadRecord) : Context :=
  { state := .filling, headIndex := position, tag := h.tag, stream := h.stream, mark := h.mark
    fragmentCount := h.fragmentCount, fragments := [⟨h.address, h.length⟩], totalLength := h.totalLength }

/-- SF takes a send record's copy from ring `r` at a ring index, by what the ring expects (R94 to R97). -/
def Part.takeSendRecord (p : Part) (r : Fin 4) (position : Nat) (record : SendRecord) : Part :=
  match p.filling? r with
  | some c =>
    match record with
    | .fragment address length =>
      let p := p.modContext c fun x => { x with fragments := x.fragments ++ [⟨address, length⟩] }
      if (p.context c).fragments.length = (p.context c).fragmentCount then p.validate c else p
    | _ => p.completeContext c .badRecord
  | none =>
    match p.freeContext? r with
    | none => p
    | some c =>
      match record with
      | .head h =>
        let p := (p.modContext c fun _ => headContext position h).joinFetchOrder c
        if h.fragmentCount = 1 || h.fragmentCount = 0 || 16 < h.fragmentCount then p.validate c else p
      | _ =>
        ((p.modContext c fun _ => { headIndex := position }).joinFetchOrder c).completeContext c .badRecord

/-! ## Choosing a context (R111 to R114) -/

/-- The first context on a send line that is not SENT (R99). -/
def Part.firstUnsent (p : Part) (i : Fin 64) : Option (Fin 32) :=
  (p.stream i).sendLine.find? fun c => decide ((p.context c).state ≠ .sent)

/-- A context is eligible (R111). -/
def Part.eligible (p : Part) (c : Fin 32) : Bool :=
  let x := p.context c
  (x.state = .ready || x.state = .sending) &&
    match index? 64 x.stream with
    | none => false
    | some i => (p.stream i).state = .opened && 1 ≤ (p.stream i).credits && p.firstUnsent i = some c

/-- The ring's eligible context that comes earliest in its fetch order (R114). -/
def Part.ringPick (p : Part) (r : Fin 4) : Option (Fin 32) := (p.sf.fetchOrder.get r).find? p.eligible

/-- The weight of a weighted ring. -/
def Part.weight (p : Part) (r : Fin 4) : Nat :=
  match r with
  | 1 => p.hi.config.weight1
  | 2 => p.hi.config.weight2
  | _ => p.hi.config.weight3

/-- The next weighted ring in the cycle 1, 2, 3, 1 (R113). -/
def nextWeighted (r : Fin 4) : Fin 4 :=
  match r with
  | 1 => 2
  | 2 => 3
  | _ => 1

/-- A weighted ring has an eligible context. -/
def Part.weightedBusy (p : Part) : Bool := [1, 2, 3].any fun r => (p.ringPick r).isSome

/-- The pick among the weighted rings (R113): the ring chosen, with the turn ring and turn count it leaves. -/
def Part.weightedPick (p : Part) : Option (Fin 4 × Nat) :=
  let t := p.tx.turnRing
  if (p.ringPick t).isSome && p.tx.turnCount < p.weight t then some (t, p.tx.turnCount)
  else
    let a := nextWeighted t
    let b := nextWeighted a
    ([a, b, nextWeighted b].find? fun r => (p.ringPick r).isSome).map fun r => (r, 0)

/-- TX chooses the express ring (R112). -/
def Part.expressChosen (p : Part) : Bool :=
  (p.ringPick 0).isSome && (p.tx.burst < p.hi.config.burstLimit || !p.weightedBusy)

/-- The parcel a context's cursor describes (R115). -/
def Part.describe (p : Part) (c : Fin 32) (i : Fin 64) : Described :=
  let x := p.context c
  { context := c, stream := i, index := x.nextIndex, offset := x.nextOffset
    length := min p.lk.payloadSize (x.totalLength - x.nextOffset)
    first := x.nextIndex = 0
    last := x.nextIndex + 1 = x.parcelCount
    mark := if x.nextIndex = 0 then x.mark else 0 }

/-- TX begins to gather the next parcel of a context: the slot enters READING and HI issues the reads (R115). -/
def Part.gather (p : Part) (c : Fin 32) : Part :=
  match index? 64 (p.context c).stream with
  | none => p
  | some i =>
    let d := p.describe c i
    let reads := payloadReads (p.context c).fragments d.offset d.length
    Part.issueAll { p with tx := { p.tx with staging := .reading d true reads } } (readAccesses .gatherRead 0 reads)

/-- TX may make a pick: RUNNING, the link UP, no teardown pending, the slot EMPTY (R111). -/
def Part.mayPick (p : Part) : Bool :=
  p.running && p.lk.state = .up && p.lk.teardown.isNone && p.tx.staging = .empty

/-- TX makes a pick (R111 to R115). -/
def Part.pick (p : Part) : Part :=
  if !p.mayPick then p
  else if p.expressChosen then
    match p.ringPick 0 with
    | some c => p.gather c
    | none => p
  else
    match p.weightedPick with
    | none => p
    | some (r, count) =>
      match p.ringPick r with
      | some c => Part.gather { p with tx := { p.tx with turnRing := r, turnCount := count } } c
      | none => p

/-! ## The end of a gathering (R116, R120) -/

/-- A payload read fault on a first transmission (R120). -/
def Part.payloadReadFault (p : Part) (d : Described) : Part :=
  let started := decide (0 < (p.context d.context).nextIndex)
  let p := Part.hostReadFault { p with tx := { p.tx with staging := .empty } } d.context
  if started then p.queueCut d.stream else p

/-- One host read of the gathering ends; with the last one the gathering ends (R116, R119). -/
def Part.gatherEnd (p : Part) (k : Nat) (result : ReadEnd) : Part :=
  match p.tx.staging with
  | .reading d wanted reads =>
    let reads := endRead reads k result
    if !readsEnded reads then { p with tx := { p.tx with staging := .reading d wanted reads } }
    else if !wanted then { p with tx := { p.tx with staging := .empty } }
    else
      match readsPayload reads with
      | some payload => { p with tx := { p.tx with staging := .ready d payload } }
      | none => p.payloadReadFault d
  | _ => p

/-! ## Refetches (R61, R62, R67) -/

/-- The entry at the rewind position. -/
def Part.rewindEntry (p : Part) : Option ReplayEntry :=
  match p.sq.rewind with
  | none => none
  | some n => p.sq.entry? n

/-- SQ may start a refetch now: RUNNING, no teardown pending, the slot EMPTY (R61). -/
def Part.mayRefetch (p : Part) : Bool := p.running && p.lk.teardown.isNone && p.sq.slot = .empty

/-- SQ starts the refetch of the LIVE DATA entry at the rewind position (R61). -/
def Part.refetch (p : Part) : Part :=
  if !p.mayRefetch then p
  else
    match p.rewindEntry with
    | some ⟨seq, .data c _ _ offset length _ _ _⟩ =>
      let reads := payloadReads (p.context c).fragments offset length
      Part.issueAll { p with sq := { p.sq with slot := .reading seq true reads } } (readAccesses .refetchRead 0 reads)
    | _ => p

/-- A refetch fault (R67): the slot empties, the context is decided HOST_READ_FAULT and its entries turn VOID, and
a CUT is asked for unless a parcel of a later message of the stream has been sequenced. It is so too while a teardown
for the replay limit waits for the framer (log entry 34). -/
def Part.refetchFault (p : Part) (seq : Seq) : Part :=
  match p.sq.entry? seq with
  | some ⟨_, .data c i _ _ _ _ _ _⟩ =>
    let later := (p.context c).laterSequenced
    let p := Part.hostReadFault (Part.voidEntries { p with sq := { p.sq with slot := .empty } } c) c
    if later then p else p.queueCut i
  | _ => { p with sq := { p.sq with slot := .empty } }

/-- One host read of the refetch ends; with the last one the refetch ends (R61 to R65, R67). -/
def Part.refetchRead (p : Part) (k : Nat) (result : ReadEnd) : Part :=
  match p.sq.slot with
  | .reading seq wanted reads =>
    let reads := endRead reads k result
    if !readsEnded reads then { p with sq := { p.sq with slot := .reading seq wanted reads } }
    else if !wanted then { p with sq := { p.sq with slot := .empty } }
    else
      match readsPayload reads with
      | some payload => { p with sq := { p.sq with slot := .ready seq payload } }
      | none => p.refetchFault seq
  | _ => p

/-! ## The first transmission of a DATA parcel (R100, R112, R113, R117) -/

/-- SF takes the report of a context's parcel sequenced (R100). -/
def Context.advance (x : Context) (length : Nat) : Context :=
  { x with
    nextIndex := x.nextIndex + 1
    nextOffset := x.nextOffset + length
    state := if x.nextIndex + 1 = x.parcelCount then .sent else .sending }

/-- The contexts ahead of `c` on a send line: those fetched before it that have no outcome. -/
def ahead (line : List (Fin 32)) (c : Fin 32) : List (Fin 32) := line.takeWhile fun x => decide (x ≠ c)

/-- Every context ahead of `c` on its line learns that a later message has been sequenced (R67, log entry 17). -/
def Part.markEarlier (p : Part) (i : Fin 64) (c : Fin 32) : Part :=
  (ahead (p.stream i).sendLine c).foldl (fun p x => p.modContext x fun y => { y with laterSequenced := true }) p

/-- The burst and turn counts at the first transmission of a DATA parcel of ring `r` (R112, R113). -/
def Part.countTurn (p : Part) (r : Fin 4) : Part :=
  { p with tx := { p.tx with
      burst :=
        if r = 0 then (if p.weightedBusy then min p.hi.config.burstLimit (p.tx.burst + 1) else 0) else 0
      turnCount := if r = 0 then p.tx.turnCount else p.tx.turnCount + 1 } }

/-- The recheck of a staged parcel (R117). -/
def Part.recheck (p : Part) (d : Described) : Bool :=
  (p.stream d.stream).state = .opened && 1 ≤ (p.stream d.stream).credits && (p.context d.context).undecided

/-- The first transmission of a staged parcel begins (R117). -/
def Part.sendStaged (p : Part) (d : Described) (payload : List Byte) : Part :=
  let parcel : Parcel := .data p.sq.next ⟨d.stream.val, d.index, d.first, d.last, d.mark, payload⟩
  let p := p.countTurn (contextRing d.context)
  let p := p.number (.data d.context d.stream d.index d.offset d.length d.first d.last d.mark)
  let p := p.modStream d.stream fun e => { e with credits := e.credits - 1 }
  let p := (p.modContext d.context fun x => x.advance d.length).markEarlier d.stream d.context
  let p := p.countParcelSent
  { p with tx := { p.tx with staging := .empty }, lk := { p.lk with transmission := some parcel } }

end Sys2Proof.Machine
end

