-- ==== Sys2Proof/Machine/Landing.lean ====
section
/-! DEFINITION. The delivery engine: landing caches, claims, the draining of the inbound queues, landing writes,
message outcomes and gap timers (Landing Rings and Reassembly), with the freeing of slots (R78, R79). -/

namespace Sys2Proof.Machine

/-! ## What a ring and a stream are doing -/

/-- The ring is free (R123). -/
def LandingRing.isFree (r : LandingRing) : Bool := r.holder.isNone && r.landing.isNone && r.waiting.isNone

/-- The ring's landing in flight is of stream `i`. -/
def LandingRing.lands (r : LandingRing) (i : Fin 64) : Bool := r.landing.any fun l => decide (l.stream = i)

/-- The landing ring a stream is bound to. -/
def Part.ringOf (p : Part) (i : Fin 64) : LandingRing := p.landRing (p.stream i).landingRing

/-- The stream is busy (R124). -/
def Part.busy (p : Part) (i : Fin 64) : Bool :=
  let r := p.ringOf i
  r.lands i || (decide (r.holder = some i) && r.waiting.isSome)

/-- Whether a cache entry is USABLE. -/
def CacheEntry.isUsable : CacheEntry → Bool
  | .usable .. => true
  | .rejected _ => false

/-- The current buffer has room left. -/
def LandingRing.hasRoom (r : LandingRing) : Bool := r.current.any fun b => decide (b.used < b.length)

/-- A buffer is available (R132). -/
def LandingRing.bufferAvailable (r : LandingRing) : Bool := r.hasRoom || r.cache.any CacheEntry.isUsable

/-- Stream `i`'s head is a DATA parcel that DL would write once a buffer is available (R132). -/
def Part.wouldWrite (p : Part) (i : Fin 64) : Bool :=
  let e := p.stream i
  match p.queue i with
  | .data d :: _ =>
    match e.reassembly.mode with
    | .assembling =>
      d.index ≠ 0 && d.index = e.reassembly.expected && e.reassembly.bytesSoFar < e.maxInbound
    | _ => d.index = 0 && (p.ringOf i).holder = some i
  | _ => false

/-! ## LANDING_EMPTY and the gap timer -/

/-- The holder of ring `r` needs a buffer and there is none (R128). -/
def Part.needsBuffer (p : Part) (r : Fin 8) : Bool :=
  let ring := p.landRing r
  match ring.holder with
  | none => false
  | some i =>
    !ring.bufferAvailable &&
      ((ring.landing.any fun l => !l.unplaced.isEmpty) || (!p.busy i && p.wouldWrite i))

/-- A need that finds the empty episode closed opens it and sets the LANDING_EMPTY flag (R128). -/
def Part.checkNeed (p : Part) (r : Fin 8) : Part :=
  if p.needsBuffer r && !(p.landRing r).episode then
    p.modLandRing r fun g => { g with episode := true, emptyFlag := true }
  else p

/-- The three things that hold while a gap timer runs (R140). A holder whose outcome waits for CQ is not timed. -/
def Part.gapWaits (p : Part) (r : Fin 8) : Bool :=
  let ring := p.landRing r
  match ring.holder with
  | none => false
  | some i =>
    (p.stream i).reassembly.mode = .assembling && ring.landing.isNone && ring.waiting.isNone && (p.queue i).isEmpty

/-- The gap timer starts when its conditions come to hold and stops when one ceases to hold (R140). The gap
timeout is in units of 100 microseconds. -/
def Part.updateGap (p : Part) (r : Fin 8) : Part :=
  p.modLandRing r fun g =>
    { g with gapTimer := if p.gapWaits r then g.gapTimer.startIfIdle (100 * p.cm.timers.gapTimeout) else .idle }

/-- What follows at once from a change at ring `r`: the gap timer and the empty episode. -/
def Part.refreshRing (p : Part) (r : Fin 8) : Part := (p.updateGap r).checkNeed r

/-! ## Claims (R129 to R131) -/

/-- Stream `i` is in a position to ask for its ring's claim (R129). -/
def Part.mayAsk (p : Part) (i : Fin 64) : Bool :=
  match p.queue i with
  | .data d :: _ => d.index = 0 && (p.stream i).reassembly.mode ≠ .assembling && !p.busy i && !p.claims i
  | _ => false

/-- Stream `i` asks for its ring's claim if it is in a position to (R129). -/
def Part.askClaim (p : Part) (i : Fin 64) : Part :=
  if !p.mayAsk i then p
  else if (p.ringOf i).isFree then p.modLandRing (p.stream i).landingRing fun g => { g with holder := some i }
  else p.modLandRing (p.stream i).landingRing fun g => { g with claimQueue := g.claimQueue ++ [i] }

/-- A ring that is free passes its claim to the oldest stream in its claim queue (R130). -/
def Part.passClaim (p : Part) (r : Fin 8) : Part :=
  match (p.landRing r).isFree, (p.landRing r).claimQueue with
  | true, j :: rest => p.modLandRing r fun g => { g with holder := some j, claimQueue := rest }
  | _, _ => p

/-- Stream `i` gives up ring `r`'s claim: it passes on, DL reports to SC, and the stream asks again behind those
that waited (R130, R131). -/
def Part.giveUpClaim (p : Part) (r : Fin 8) (i : Fin 64) : Part :=
  let p := (p.modLandRing r fun g => { g with holder := none }).passClaim r
  ((p.exitTest i).askClaim i).refreshRing r

/-! ## Message outcomes (R135, R144) -/

/-- A decided message completion joins the delivery completion line and waits at its ring. -/
def Part.postMessage (p : Part) (r : Fin 8) (m : MessageCompletion) : Part :=
  let p := p.modLandRing r fun g => { g with current := none, waiting := some m }
  { p with dl := { p.dl with line := p.dl.line ++ [.message r m] } }

/-- The message a stream is assembling, as its completion would report it (R144). -/
def StreamEntry.messageCompletion (e : StreamEntry) (i : Fin 64) (status : Status) : MessageCompletion :=
  { stream := i, firstSlot := e.reassembly.firstSlot, lastSlot := e.reassembly.lastSlot
    length := e.reassembly.bytesSoFar, mark := e.reassembly.mark, status := status }

/-- The message stream `i` is assembling ends with a status, and its mode becomes `mode` (R135). -/
def Part.endMessage (p : Part) (i : Fin 64) (status : Status) (mode : Mode) : Part :=
  let m := (p.stream i).messageCompletion i status
  (p.postMessage (p.stream i).landingRing m).modStream i fun e =>
    { e with reassembly := { e.reassembly with mode := mode } }

/-! ## Placing bytes in buffers (R127, R134) -/

/-- What placing bytes works on: the cache and the current buffer, the bytes not yet placed, the writes made, and
the message's first and last landing slots. -/
structure Placing where
  cache : List CacheEntry
  current : Option Buffer
  unplaced : List Byte
  issued : Nat
  writes : List Access
  firstSlot : Nat
  lastSlot : Nat

/-- The oldest USABLE entry becomes the current buffer; it is the message's first when there was none (R127). -/
def Placing.takeBuffer (x : Placing) : Option Placing :=
  match x.cache.find? CacheEntry.isUsable with
  | some (.usable slot address length) =>
    some { x with
      cache := x.cache.eraseP CacheEntry.isUsable
      current := some ⟨slot, address, length, 0⟩
      firstSlot := if x.current.isNone then slot else x.firstSlot
      lastSlot := slot }
  | _ => none

/-- One host write fills as much of the current buffer as there are bytes for (R134), at the buffer's address plus its
bytes used, modulo 2^64 (log entry 28). -/
def Placing.write (r : Fin 8) (x : Placing) (b : Buffer) : Placing :=
  let n := min (b.length - b.used) x.unplaced.length
  { x with
    current := some { b with used := b.used + n }
    unplaced := x.unplaced.drop n
    issued := x.issued + 1
    writes := x.writes ++
      [⟨.landingWrite r x.issued, b.address + BitVec.ofNat 64 b.used, n, x.unplaced.take n⟩] }

/-- Bytes are placed in order, buffer after buffer, until none are left or no USABLE entry is (R134). Each round
writes to a buffer or takes one, so the fuel of `placeFuel` is enough. -/
def placeAll (r : Fin 8) : Nat → Placing → Placing
  | 0, x => x
  | fuel + 1, x =>
    if x.unplaced.isEmpty then x
    else
      match x.current with
      | some b =>
        if b.used < b.length then placeAll r fuel (x.write r b)
        else
          match x.takeBuffer with
          | some y => placeAll r fuel y
          | none => x
      | none =>
        match x.takeBuffer with
        | some y => placeAll r fuel y
        | none => x

/-- Twice the cache's entries, and one write more for the current buffer and the end. -/
def placeFuel (x : Placing) : Nat := 2 * x.cache.length + 2

/-- DL places the unplaced bytes of ring `r`'s landing in flight, as far as buffers allow (R134). -/
def Part.place (p : Part) (r : Fin 8) : Part :=
  let ring := p.landRing r
  match ring.landing with
  | none => p
  | some l =>
    let e := p.stream l.stream
    let x : Placing :=
      ⟨ring.cache, ring.current, l.unplaced, l.issued, [], e.reassembly.firstSlot, e.reassembly.lastSlot⟩
    let y := placeAll r (placeFuel x) x
    let p := p.modLandRing r fun g =>
      { g with
        cache := y.cache
        current := y.current
        landing := some { l with
          unplaced := y.unplaced
          issued := y.issued
          writes := l.writes ++ (List.range (y.issued - l.issued)).map (l.issued + ·) } }
    let p := p.modStream l.stream fun e =>
      { e with reassembly := { e.reassembly with firstSlot := y.firstSlot, lastSlot := y.lastSlot } }
    p.issueAll y.writes

/-! ## The end of a landing (R135, R136, R141 to R143) -/

/-- All of a landing's bytes have been placed, or discarded, and all of its writes have ended (R134). -/
def Landing.ended (l : Landing) : Bool := l.unplaced.isEmpty && l.writes.isEmpty

/-- The status of a message ended early by a cause. -/
def LandingCause.status : LandingCause → Status
  | .none => .ok
  | .hostWriteFault => .hostWriteFault
  | .cancelled => .cancelled
  | .linkLost => .linkLost

/-- Ring `r`'s landing in flight ends, once its bytes and writes have: its bytes are counted and the message goes
on or ends (R135, R136), or the cause that cut it short decides the outcome (R141 to R143). -/
def Part.endLanding (p : Part) (r : Fin 8) : Part :=
  match (p.landRing r).landing with
  | none => p
  | some l =>
    if !l.ended then p
    else
      let i := l.stream
      let p := p.modLandRing r fun g => { g with landing := none }
      match l.kept with
      | some k =>
        ((p.postMessage r ⟨i, k.firstSlot, k.lastSlot, k.bytesSoFar, k.mark, l.cause.status⟩).askClaim i).refreshRing r
      | none =>
        match l.cause with
        | .none =>
          let p := p.modStream i fun e =>
            { e with reassembly := { e.reassembly with bytesSoFar := e.reassembly.bytesSoFar + l.payload.length } }
          if !l.whole then (p.endMessage i .oversize .discarding).refreshRing r
          else if l.last then (p.endMessage i .ok .idle).refreshRing r
          else p.refreshRing r
        | .hostWriteFault => (p.endMessage i .hostWriteFault .discarding).refreshRing r
        | .cancelled => (p.endMessage i .cancelled (p.stream i).reassembly.mode).refreshRing r
        | .linkLost => (p.endMessage i .linkLost .idle).refreshRing r

/-- A landing write ends (R134, R135). A failure ends the message, unless a close or a teardown has already decided
how it ends (R141). -/
def Part.landingWriteEnd (p : Part) (r : Fin 8) (k : Nat) (ok : Bool) : Part :=
  (p.modLandRing r fun g =>
    { g with landing := g.landing.map fun l =>
        let fails := !ok && l.cause = .none
        { l with
          writes := l.writes.filter fun n => decide (n ≠ k)
          cause := if fails then .hostWriteFault else l.cause
          unplaced := if fails then [] else l.unplaced } }).endLanding r

/-! ## Draining (R132, R133, R136 to R139) -/

/-- The head of stream `i`'s inbound queue is deliverable (R132). -/
def Part.deliverable (p : Part) (i : Fin 64) : Bool :=
  let e := p.stream i
  let x := e.reassembly
  !p.busy i &&
    match p.queue i with
    | [] => false
    | .data d :: _ =>
      match x.mode with
      | .assembling =>
        if d.index = 0 || d.index ≠ x.expected || e.maxInbound ≤ x.bytesSoFar then true
        else (p.ringOf i).bufferAvailable
      | _ => if d.index ≠ 0 then true else (p.ringOf i).holder = some i && (p.ringOf i).bufferAvailable
    | _ :: _ => true

/-- The first deliverable stream after the rotation pointer, wrapping from 63 to 0 (R132). -/
def Part.nextDeliverable (p : Part) : Option (Fin 64) :=
  ((numbers 64).map fun k => p.dl.pointer + 1 + k).find? p.deliverable

/-- IB removes the head of a stream's inbound queue. -/
def Part.removeHead (p : Part) (i : Fin 64) : Part := p.setQueue i (p.queue i).tail

/-- IB frees the slot of a DATA head that DL takes, and counts the return while the stream is OPEN (R78, R79). -/
def Part.freeSlot (p : Part) (i : Fin 64) : Part :=
  let p := { p with ib := { p.ib with freeCount := p.ib.freeCount + 1 } }
  let p := p.modStream i fun e => { e with occupancy := e.occupancy - 1 }
  if (p.stream i).state ≠ .opened then p
  else
    let e := p.stream i
    let returns := e.pendingReturns + 1
    if e.returnBatch ≤ returns || e.occupancy = 0 then
      (p.modStream i fun e => { e with pendingReturns := 0 }).queueReturnGrant i returns
    else p.modStream i fun e => { e with pendingReturns := returns }

/-- DL takes a DATA head: it leaves the queue and its slot is freed. -/
def Part.takeData (p : Part) (i : Fin 64) : Part := (p.removeHead i).freeSlot i

/-- A message begins with an index-0 parcel (R133). -/
def Part.beginMessage (p : Part) (i : Fin 64) (mark : BitVec 16) : Part :=
  p.modStream i fun e =>
    { e with reassembly := { e.reassembly with mode := .assembling, expected := 1, bytesSoFar := 0, mark := mark } }

/-- DL lands a parcel it has taken: up to the max inbound message, into the ring's buffers (R134, R136). -/
def Part.land (p : Part) (i : Fin 64) (d : StoredData) : Part :=
  let e := p.stream i
  let r := e.landingRing
  let room := e.maxInbound - e.reassembly.bytesSoFar
  let bytes := d.payload.take room
  let p := p.modStream i fun e => { e with reassembly := { e.reassembly with expected := d.index + 1 } }
  let p := p.modLandRing r fun g =>
    { g with landing := some ⟨i, bytes, d.last, d.payload.length ≤ room, bytes, [], 0, .none, none⟩ }
  p.place r

/-- The stream's mode becomes `mode`. -/
def Part.setMode (p : Part) (i : Fin 64) (mode : Mode) : Part :=
  p.modStream i fun e => { e with reassembly := { e.reassembly with mode := mode } }

/-- DL serves a DATA head (R133, R134, R136, R137). -/
def Part.serveData (p : Part) (i : Fin 64) (d : StoredData) : Part :=
  let e := p.stream i
  match e.reassembly.mode with
  | .assembling =>
    if d.index = 0 then p.endMessage i .incomplete .idle
    else if d.index ≠ e.reassembly.expected then (p.takeData i).endMessage i .incomplete .discarding
    else if e.maxInbound ≤ e.reassembly.bytesSoFar then (p.takeData i).endMessage i .oversize .discarding
    else (p.takeData i).land i d
  | _ =>
    if d.index ≠ 0 then (p.takeData i).setMode i .discarding
    else ((p.takeData i).beginMessage i d.mark).land i d

/-- DL serves a CUT marker (R138). -/
def Part.serveCut (p : Part) (i : Fin 64) : Part :=
  let p := p.removeHead i
  if (p.stream i).reassembly.mode = .assembling then p.endMessage i .cut .idle else p.setMode i .idle

/-- DL serves a WITHDRAW marker (R139): an assembling message ends PEER_CLOSED, and the report to SC waits for its
completion to be taken; otherwise the report goes at once. -/
def Part.serveWithdraw (p : Part) (i : Fin 64) : Part :=
  let p := p.removeHead i
  if (p.stream i).reassembly.mode = .assembling then p.endMessage i .peerClosed .idle
  else (p.setMode i .idle).markerReported i

/-- DL serves the next deliverable head in rotation (R132). -/
def Part.deliver (p : Part) : Part :=
  match p.nextDeliverable with
  | none => p
  | some i =>
    let r := (p.stream i).landingRing
    let p := { p with dl := { p.dl with pointer := i } }
    let p :=
      match p.queue i with
      | .data d :: _ => p.serveData i d
      | .cutMarker :: _ => p.serveCut i
      | .withdrawMarker :: _ => p.serveWithdraw i
      | [] => p
    (p.askClaim i).refreshRing r

/-! ## Landing records (R125, R126) -/

/-- A buffer length that DL accepts (R125). -/
def landingLengthValid (length : Nat) : Bool := 256 ≤ length && length ≤ 65536 && length % 64 = 0

/-- DL takes a landing record's copy at a ring index (R125 to R128). -/
def Part.takeLandingRecord (p : Part) (r : Fin 8) (slot : Nat) (address : Addr) (length : Nat) : Part :=
  if landingLengthValid length then
    let p := p.modLandRing r fun g => { g with cache := g.cache ++ [.usable slot address length], episode := false }
    let p := if (p.landRing r).landing.any fun l => !l.unplaced.isEmpty then p.place r else p
    p.refreshRing r
  else
    let p := p.modLandRing r fun g => { g with cache := g.cache ++ [.rejected slot] }
    { p with dl := { p.dl with line := p.dl.line ++ [.rejected r slot length] } }

/-! ## The gap timer's expiry, and a close (R140, R142) -/

/-- A ring's gap timer expires: the holder's message ends INCOMPLETE and its mode becomes DISCARDING (R140). -/
def Part.gapExpiry (p : Part) (r : Fin 8) : Part :=
  let ring := p.landRing r
  if !ring.gapTimer.isRunning then p
  else
    let p := p.modLandRing r fun g => { g with gapTimer := .idle }
    match ring.holder with
    | none => p
    | some i => (p.endMessage i .incomplete .discarding).refreshRing r

/-- DL gives up a closing stream's work (R142). -/
def Part.closeDelivery (p : Part) (i : Fin 64) : Part :=
  let r := (p.stream i).landingRing
  let ring := p.landRing r
  let p := p.modLandRing r fun g => { g with claimQueue := g.claimQueue.filter fun j => decide (j ≠ i) }
  let p :=
    if ring.holder ≠ some i || ring.waiting.isSome then p
    else
      match ring.landing with
      | some l =>
        if l.cause = .none then
          (p.modLandRing r fun g => { g with landing := some { l with cause := .cancelled, unplaced := [] } }).endLanding r
        else p
      | none =>
        if (p.stream i).reassembly.mode = .assembling then p.endMessage i .cancelled .assembling
        else ((p.setMode i .idle).modLandRing r fun g => { g with holder := none }).passClaim r
  (p.exitTest i).refreshRing r

/-! ## DL's part of a teardown (R143) -/

/-- The message the holder of a ring was assembling, with nothing in flight and no outcome: it ends at once. -/
def Part.endsAtTeardown (p : Part) (ring : LandingRing) : Option MessageCompletion :=
  match ring.holder with
  | none => none
  | some i =>
    if (p.stream i).reassembly.mode = .assembling && ring.landing.isNone && ring.waiting.isNone then
      some ((p.stream i).messageCompletion i .linkLost)
    else none

/-- A landing in flight at a teardown: its unplaced bytes go, it keeps its message's fields, and its outcome is
LINK_LOST unless a failed write has already ended the message. -/
def Part.landingAtTeardown (p : Part) (l : Landing) : Landing :=
  match l.kept with
  | some _ => l
  | none =>
    let x := (p.stream l.stream).reassembly
    { l with
      unplaced := []
      cause := if l.cause = .hostWriteFault then .hostWriteFault else .linkLost
      kept := some ⟨x.bytesSoFar, x.firstSlot, x.lastSlot, x.mark⟩ }

/-- The completion of a landing that waits for no write any more. -/
def Landing.keptCompletion (l : Landing) : Option MessageCompletion :=
  match l.kept with
  | some k =>
    if l.ended then some ⟨l.stream, k.firstSlot, k.lastSlot, k.bytesSoFar, k.mark, l.cause.status⟩ else none
  | none => none

/-- The completion that a teardown decides at once at a ring, if any. -/
def Part.teardownCompletion (p : Part) (ring : LandingRing) : Option MessageCompletion :=
  match ring.landing with
  | some l => (p.landingAtTeardown l).keptCompletion
  | none => p.endsAtTeardown ring

/-- A ring after a teardown: no holder, no queue, no timer; a message ended at once waits for CQ, and a landing
in flight runs on. -/
def Part.ringAtTeardown (p : Part) (ring : LandingRing) : LandingRing :=
  let ring' := { ring with holder := none, claimQueue := [], gapTimer := .idle }
  match p.teardownCompletion ring with
  | some m => { ring' with landing := none, current := none, waiting := some m }
  | none => { ring' with landing := ring.landing.map p.landingAtTeardown }

/-- Insertion of a ring into a list of rings by rank. -/
def insertByRank (rank : Fin 8 → Nat) (r : Fin 8) : List (Fin 8) → List (Fin 8)
  | [] => [r]
  | s :: rest => if rank r ≤ rank s then r :: s :: rest else s :: insertByRank rank r rest

/-- Rings in the order the free value `n` gives them; a single ring needs no free value (log entry 8). -/
def freeOrder (n : Nat) (rings : List (Fin 8)) : List (Fin 8) :=
  match rings with
  | [] => []
  | [r] => [r]
  | rs => rs.foldr (insertByRank fun r => Config.ringRank n r.val) []

/-- DL's part of a teardown (R143). -/
def Part.teardownDelivery (p : Part) : Part :=
  let ending := (numbers 8).filter fun r => (p.teardownCompletion (p.landRing r)).isSome
  let decided := (freeOrder p.choice ending).filterMap fun r =>
    (p.teardownCompletion (p.landRing r)).map (DeliveryCompletion.message r)
  { p with
    dl := { p.dl with rings := p.dl.rings.map p.ringAtTeardown, line := p.dl.line ++ decided }
    choice := if 2 ≤ ending.length then p.choice + 1 else p.choice }

end Sys2Proof.Machine
end

