-- ==== Sys2Proof/Machine/Posting.lean ====
section
/-! DEFINITION. The completion unit: the writer, the posting order, the taking of completions, the pending list
and its arbiter, and interrupt moderation (Completions and Interrupts). -/

namespace Sys2Proof.Machine

/-! ## Writing a record (R147) -/

/-- CQ begins to write a record: it takes the next serial, a free slot and the position's slot. -/
def Part.beginWrite (p : Part) (record : Record) : Part :=
  let ring := p.hi.config.completion
  let slot := p.cq.position
  let serial := p.cq.serial
  Part.issue
    { p with cq := { p.cq with
        serial := (serial + 1) % 65536
        free := p.cq.free - 1
        position := nextIndex slot ring.length
        writer := .writing slot serial record } }
    ⟨.completionWrite, recordAddress ring slot, 32, record.bytes serial⟩

/-- CQ may begin a write: RUNNING, the writer IDLE, a slot free. -/
def Part.mayWrite (p : Part) : Bool := p.running && p.cq.writer = .idle && 0 < p.cq.free

/-! ## Event records (R43, R21, R22, R30, R128, R153, R154) -/

/-- The link event record: LINK_UP while the link is UP, LINK_DOWN otherwise (R43). -/
def Part.linkRecord (p : Part) : Record :=
  let l := p.lk
  if l.state = .up then .linkUp l.latestCause l.transitions l.payloadSize l.window l.peerLabel
  else .linkDown l.latestCause l.transitions l.payloadSize l.window l.peerLabel

/-- The lowest-numbered stream with an event flag set. -/
def Part.flaggedStream (p : Part) : Option (Fin 64) := (numbers 64).find? fun i => (p.stream i).anyFlag

/-- The lowest-numbered landing ring whose LANDING_EMPTY flag is set. -/
def Part.flaggedRing (p : Part) : Option (Fin 8) := (numbers 8).find? fun r => (p.landRing r).emptyFlag

/-- A stream's first event record in the order ENDED, OFFERED, PROTOCOL, with the flag cleared. -/
def StreamEntry.post (e : StreamEntry) (i : Fin 64) : Record × StreamEntry :=
  if e.endedFlag then (.streamEnded i e.state, { e with endedFlag := false })
  else if e.offeredFlag then (.streamOffered i e.state e.peerMaxMessage, { e with offeredFlag := false })
  else
    (.streamProtocolError i e.protocolCause e.protocolCount,
      { e with protocolFlag := false, protocolCause := .none, protocolCount := 0 })

/-- The first waiting event record in posting order, with its flag cleared by its owner (R153, R154). -/
def Part.postEvent (p : Part) : Option (Record × Part) :=
  if p.lk.eventFlag then
    some (p.linkRecord, { p with lk := { p.lk with eventFlag := false, transitions := 0 } })
  else if p.lk.protocolFlag then
    some (.linkProtocolError p.lk.protocolCause p.lk.protocolCount,
      { p with lk := { p.lk with protocolFlag := false, protocolCause := .none, protocolCount := 0 } })
  else
    match p.flaggedStream with
    | some i => some (((p.stream i).post i).1, p.modStream i fun e => (e.post i).2)
    | none =>
      p.flaggedRing.map fun r => (.landingEmpty r, p.modLandRing r fun g => { g with emptyFlag := false })

/-! ## The producers (R155, R157) -/

/-- What a producer offers to CQ, if anything: the head of its line, or the finished command. -/
def Part.offer? (p : Part) : Producer → Option Record
  | .cm =>
    match p.cm.command with
    | some ⟨command, tag, .offered status⟩ => some (.command tag (commandCode command) status)
    | _ => none
  | .sf =>
    match p.sf.line with
    | [] => none
    | c :: _ =>
      let x := p.context c
      some (.send (contextRing c).val x.headIndex x.tag (x.outcome.getD .ok) x.totalLength)
  | .dl =>
    match p.dl.line with
    | [] => none
    | .message r m :: _ => some (.message r m)
    | .rejected r slot length :: _ => some (.landing r slot length)

/-- The stream has been closed by the host, so that its mode becomes IDLE when it gives up its claim (R142). -/
def StreamEntry.closedByHost (e : StreamEntry) : Bool :=
  e.state = .closing || (e.state = .winding && e.closeWaiting)

/-- DL is released from a message completion that CQ has taken: the claim goes, if the stream still holds it, and
a PEER_CLOSED one makes DL report the marker processed (R130, R139, R142, R144). -/
def Part.messageTaken (p : Part) (r : Fin 8) (m : MessageCompletion) : Part :=
  let i := m.stream
  let held := decide ((p.landRing r).holder = some i)
  let p := p.modLandRing r fun g => { g with waiting := none }
  if held then
    let p := if (p.stream i).closedByHost then p.setMode i .idle else p
    let p :=
      if m.status = .peerClosed && (p.stream i).state = .winding then
        p.modStream i fun e => { e with markerProcessed := true }
      else p
    p.giveUpClaim r i
  else (p.passClaim r).refreshRing r

/-- CQ has taken a producer's offer and releases it (R105, R144, R166). -/
def Part.released (p : Part) : Producer → Part
  | .cm => { p with cm := { p.cm with command := none } }
  | .sf =>
    match p.sf.line with
    | [] => p
    | c :: rest =>
      { p with sf := { p.sf with
          contexts := p.sf.contexts.set c {}
          fetchOrder := p.sf.fetchOrder.modify (contextRing c) fun l => l.filter fun x => decide (x ≠ c)
          line := rest } }
  | .dl =>
    match p.dl.line with
    | [] => p
    | .message r m :: rest => Part.messageTaken { p with dl := { p.dl with line := rest } } r m
    | .rejected r slot _ :: rest =>
      Part.modLandRing { p with dl := { p.dl with line := rest } } r fun g =>
        { g with cache := g.cache.erase (.rejected slot) }

/-- CQ takes an offer by beginning its write at once (R155). -/
def Part.straight (p : Part) : Bool := p.mayWrite && p.cq.list.isEmpty && !p.anyFlag

/-- The pending completion list has room (R156). -/
def Part.listRoom (p : Part) : Bool := p.cq.list.length < 32

/-- CQ takes what a producer offers, straight into the ring or onto the pending list, and releases the producer. -/
def Part.take (p : Part) (who : Producer) : Part :=
  match p.offer? who with
  | none => p
  | some record =>
    let p :=
      if p.straight then p.beginWrite record else { p with cq := { p.cq with list := p.cq.list ++ [record] } }
    p.released who

/-- The producers that offer a completion now. -/
def Part.offering (p : Part) : List Producer := [Producer.cm, .sf, .dl].filter fun w => (p.offer? w).isSome

/-- The producer CQ turns to first among several that offer at the same moment, where the spec lets either order
be (R155); the free value decides (log entry 7). -/
def Part.chooseOffer (p : Part) : Option (Producer × Part) :=
  match p.offering with
  | [] => none
  | [w] => some (w, p)
  | w :: ws =>
    some ((w :: ws).getD (Config.offerPick p.choice % (w :: ws).length) w, { p with choice := p.choice + 1 })

/-- Offers are taken one after another while CQ can take them (R155). -/
def settleOffers : Nat → Part → Part
  | 0, p => p
  | fuel + 1, p =>
    if p.running && (p.straight || p.listRoom) then
      match p.chooseOffer with
      | none => p
      | some (w, q) => settleOffers fuel (q.take w)
    else p

/-- Every offer that CQ can take is taken. One may go straight into the ring and 32 onto the list, so 33 rounds
are enough. A command's event flags are set before this, so a completion that the same command decides goes onto the
list behind them (log entry 35). -/
def Part.settle (p : Part) : Part := settleOffers 33 p

/-- The producer after another in the cycle CM, SF, DL, CM (R157). -/
def nextProducer : Producer → Producer
  | .cm => .sf
  | .sf => .dl
  | .dl => .cm

/-- A freed place on the list goes to the first waiting producer after the producer turn, which it becomes
(R157). -/
def Part.grantPlace (p : Part) : Part :=
  let a := nextProducer p.cq.turn
  let b := nextProducer a
  match [a, b, nextProducer b].find? fun w => (p.offer? w).isSome with
  | none => p
  | some w => Part.take { p with cq := { p.cq with turn := w } } w

/-- CQ begins to write the first waiting record in posting order (R147, R153). -/
def Part.writeNext (p : Part) : Part :=
  if !p.mayWrite then p
  else
    match p.postEvent with
    | some (record, q) => q.beginWrite record
    | none =>
      match p.cq.list with
      | [] => p.settle
      | record :: rest => (Part.grantPlace ((Part.beginWrite { p with cq := { p.cq with list := rest } } record))).settle

/-! ## Interrupt moderation (R159, R160) -/

/-- CQ announces the records. -/
def Part.announce (p : Part) : Part :=
  Part.raise { p with cq := { p.cq with unannounced := 0, holdoffTimer := .idle } } eventCompletion

/-- A record whose write has ended is counted: at the threshold the records are announced; the first of several
starts the holdoff timer, and a holdoff of 0 expires the moment it starts. -/
def Part.countRecord (p : Part) : Part :=
  let count := p.cq.unannounced + 1
  if p.hi.config.threshold ≤ count then p.announce
  else if count = 1 then
    if p.hi.config.holdoff = 0 then p.announce
    else { p with cq := { p.cq with unannounced := count, holdoffTimer := .running p.hi.config.holdoff } }
  else { p with cq := { p.cq with unannounced := count } }

end Sys2Proof.Machine
end

