-- ==== Sys2Proof/Machine/LinkControl.lean ====
section
/-! DEFINITION. The link controller: the link states, HELLO handling, teardown with every unit's part, and the
transmitter's order (Link Bring-up and Parcel Kinds; Segmentation and the Transmitter). -/

namespace Sys2Proof.Machine

/-! ## Entering the link states -/

/-- The next epoch: from 255 to 1, and otherwise upward (R34). -/
def nextEpoch (n : Nat) : Nat := if n = 255 then 1 else n + 1

/-- The payload size a code offers: 128, 256, 512 or 1,024 bytes (R27). -/
def payloadBytes (code : Nat) : Nat := 128 * 2 ^ code

/-- The link enters HELLO (R34). -/
def Part.enterHello (p : Part) : Part :=
  { p with lk := { p.lk with
      state := .hello
      localEpoch := nextEpoch p.lk.localEpoch
      peerEpoch := 0
      helloDue := .periodic
      helloTimer := .running p.cm.timers.helloInterval
      helloExit := none } }

/-- The link enters AWAIT_SIGNAL: the hello timer stops and no HELLO is due (R32, R35). -/
def Part.enterAwaitSignal (p : Part) : Part :=
  { p with lk := { p.lk with state := .awaitSignal, helloDue := .none, helloTimer := .idle, helloExit := none } }

/-- The link enters OFFLINE, and a LINK_STOP that waits for it completes OK (R40, R168). -/
def Part.enterOffline (p : Part) : Part :=
  let p := { p with lk := { p.lk with
    state := .offline, helloDue := .none, helloTimer := .idle, holdoffTimer := .idle, helloExit := none } }
  match p.cm.command with
  | some ⟨.linkStop, _, .acting⟩ => p.completeCommand .ok
  | _ => p

/-- The link enters HOLDOFF; the fault holdoff is in milliseconds (R39). -/
def Part.enterHoldoff (p : Part) : Part :=
  { p with lk := { p.lk with
      state := .holdoff, helloDue := .none, holdoffTimer := .running (1000 * p.cm.timers.faultHoldoff) } }

/-- Out of AWAIT_SIGNAL, HOLDOFF or a command: HELLO where the signal is present, AWAIT_SIGNAL where it is not. -/
def Part.enterBySignal (p : Part) : Part := if p.lk.signalPresent then p.enterHello else p.enterAwaitSignal

/-- The link enters UP (R37): the parameters are fixed, sequencing begins at 0, and the link event flag is set. -/
def Part.enterUp (p : Part) : Part :=
  Part.beginSequencing
    { p with lk := { p.lk with
        state := .up
        helloTimer := .idle
        payloadSize := min (payloadBytes p.lk.offeredCode) (payloadBytes p.lk.peerCode)
        window := min p.lk.offeredWindow p.lk.peerWindow
        eventFlag := true
        transitions := countUp 255 p.lk.transitions } }

/-! ## Teardown (R20, R41, R42, R104, R121, R143) -/

/-- What a DISRUPTED stream is left with: its state, its ring bindings and its flags (R20). -/
def StreamEntry.disrupted (e : StreamEntry) : StreamEntry :=
  { e.cleared with state := .disrupted, sendRing := e.sendRing, landingRing := e.landingRing }

/-- A stream's entry after a teardown (R20). -/
def StreamEntry.teardown (e : StreamEntry) : StreamEntry :=
  match e.state with
  | .localOpen | .opened | .disrupted => e.disrupted
  | .closing | .winding | .offered | .closed => e.cleared

/-- CM's part of a teardown: a STREAM_CLOSE whose stream is still in CLOSING or WINDING completes LINK_LOST
(R20, R172, R178). -/
def Part.teardownCommand (p : Part) : Part :=
  match p.cm.command with
  | some ⟨.streamClose n, _, .acting⟩ =>
    match index? 64 n with
    | some i =>
      if (p.stream i).state = .closing || (p.stream i).state = .winding then p.completeCommand .linkLost else p
    | none => p
  | _ => p

/-- SF's part of a teardown: every context in READY, SENDING or SENT completes LINK_LOST, by ring and fetch order
(R104, R105). -/
def Part.teardownContexts (p : Part) : Part :=
  (((numbers 4).flatMap fun r => p.sf.fetchOrder.get r).filter fun c => (p.context c).undecided).foldl
    (fun p c => p.completeContext c .linkLost) p

/-- SC's and IB's parts of a teardown: every entry, every allotment and queue, and the control queue (R20, R25,
R73, R80). -/
def Part.teardownStreams (p : Part) : Part :=
  { p with
    streams := p.streams.map StreamEntry.teardown
    control := []
    ib := {
      freeCount := p.ib.freeCount + (p.ib.queues.toList.map dataCount).sum
      reservedTotal := p.ib.reservedTotal - (p.streams.toList.map StreamEntry.allotment).sum
      queues := .fill 64 [] } }

/-- TX's part of a teardown; the credits go with the entries (R121). -/
def Part.teardownTransmitter (p : Part) : Part :=
  { p with tx := { staging := p.tx.staging.drop } }

/-- Every unit's part but LK's (R42). -/
def Part.teardownUnits (p : Part) : Part :=
  p.teardownDelivery.teardownCommand.teardownContexts.teardownStreams.teardownTransmitter.teardownSequencing

/-- LK records a HELLO's epoch, code, window and node label as the peer's, and an answer falls due (R36, R38). -/
def Part.recordHello (p : Part) (h : HelloParcel) : Part :=
  { p with lk := { p.lk with
      peerEpoch := h.epoch, peerCode := h.code, peerWindow := h.window, peerLabel := h.label
      helloDue := .answer } }

/-- The state the pending record decides (R41), entered. -/
def Part.afterTeardown (p : Part) (t : Teardown) : Part :=
  if t.stopRequested then p.enterOffline
  else if t.cause = .replayLimit then p.enterHoldoff
  else if !p.lk.signalPresent then p.enterAwaitSignal
  else
    match t.keptHello with
    | some h => p.enterHello.recordHello h
    | none => p.enterHello

/-- The pending teardown is applied (R41, R42), if there is one and the framer is free. -/
def Part.applyTeardown (p : Part) : Part :=
  match p.lk.teardown, p.lk.transmission with
  | some t, none =>
    let p := p.teardownUnits
    let p := { p with lk := { p.lk with
      teardown := none, helloDue := .none, peerEpoch := 0, eventFlag := true, latestCause := t.cause
      transitions := countUp 255 p.lk.transitions } }
    p.afterTeardown t
  | _, _ => p

/-- LK begins a teardown, if the link is UP and none is pending: it is applied at once if the framer is free, and waits
for the transmission in progress otherwise (R41). -/
def Part.beginTeardown (p : Part) (cause : LinkCause) (kept : Option HelloParcel) : Part :=
  if p.lk.state = .up && p.lk.teardown.isNone then
    Part.applyTeardown
      { p with lk := { p.lk with teardown := some ⟨cause, decide (cause = .stopped), kept⟩ } }
  else p

/-! ## The transceiver and the link's timers (R32, R34, R39) -/

/-- SIGNAL_ACQUIRED (R32). -/
def Part.signalAcquired (p : Part) : Part :=
  let p := { p with lk := { p.lk with signalPresent := true } }
  if p.lk.state = .awaitSignal then p.enterHello else p

/-- SIGNAL_LOST (R32). In HELLO with a HELLO being transmitted the leaving waits for the transmission's end. In UP it
begins a teardown, and CQ takes what the units then offer. -/
def Part.signalLost (p : Part) : Part :=
  let p := { p with lk := { p.lk with signalPresent := false } }
  match p.lk.state with
  | .hello =>
    if p.lk.helloExit.isSome then p
    else if p.lk.transmission.isSome then
      { p with lk := { p.lk with helloTimer := .idle, helloDue := .none, helloExit := some false } }
    else p.enterAwaitSignal
  | .up => if p.lk.teardown.isNone then (p.beginTeardown .signalLost none).settle else p
  | _ => p

/-- The hello timer expires (R34, R35). -/
def Part.helloExpiry (p : Part) : Part :=
  if p.lk.state = .hello && p.lk.helloTimer.isRunning then
    { p with lk := { p.lk with
        helloDue := if p.lk.helloDue = .answer then .answer else .periodic
        helloTimer := .running p.cm.timers.helloInterval } }
  else p

/-- The holdoff timer expires (R39). -/
def Part.holdoffExpiry (p : Part) : Part :=
  if p.lk.state = .holdoff && p.lk.holdoffTimer.isRunning then
    Part.enterBySignal { p with lk := { p.lk with holdoffTimer := .idle } }
  else p

/-- The replay timer expires (R59): past the limit a link fault is reported (R39) and begins a teardown, and CQ takes what
the units then offer; otherwise the replay starts again from the oldest entry. -/
def Part.replayExpiry (p : Part) : Part :=
  if !p.sq.replayTimer.isRunning then p
  else
    let count := p.sq.replayCount + 1
    let p := { p with sq := { p.sq with replayCount := count } }
    if p.cm.timers.replayLimit < count then
      let p := { p with sq := { p.sq with replayTimer := .idle } }
      if p.lk.state = .up && p.lk.teardown.isNone then (p.countLinkFault.beginTeardown .replayLimit none).settle else p
    else
      Part.rewindTo { p with sq := { p.sq with replayTimer := .running p.cm.timers.replayTimeout } } p.sq.oldest

/-! ## Arrivals (R29, R30, R36, R38) -/

/-- The framer passes arrivals on to SQ: the link is UP and no teardown is pending (R29). -/
def Part.listens (p : Part) : Bool := p.lk.state = .up && p.lk.teardown.isNone

/-- A HELLO's fields are in range (R30). -/
def HelloValid (h : HelloParcel) : Bool := 1 ≤ h.epoch && h.code ≤ 3 && 16 ≤ h.window && h.window ≤ 256

/-- A HELLO arrives in HELLO (R36). -/
def Part.helloInHello (p : Part) (h : HelloParcel) : Part :=
  if !HelloValid h then p.linkProtocolError .helloInvalid
  else
    let q := p.recordHello h
    if h.seen = q.lk.localEpoch then q.enterUp else q

/-- A HELLO arrives in UP (R38). One that begins a teardown is kept, and CQ takes what the units then offer. -/
def Part.helloInUp (p : Part) (h : HelloParcel) : Part :=
  if !HelloValid h then p.linkProtocolError .helloInvalid
  else if h.epoch = p.lk.peerEpoch then
    let p := if h.code ≠ p.lk.peerCode || h.window ≠ p.lk.peerWindow then p.linkProtocolError .helloMismatch else p
    if h.seen = p.lk.localEpoch then p else { p with lk := { p.lk with helloDue := .answer } }
  else (p.beginTeardown .peerRestart (some h)).settle

/-- A HELLO arrives (R29). -/
def Part.helloArrives (p : Part) (h : HelloParcel) : Part :=
  match p.lk.state with
  | .hello => if p.lk.helloExit.isSome then p else p.helloInHello h
  | .up => if p.lk.teardown.isSome then p else p.helloInUp h
  | _ => p

/-- A bad parcel is received (R29, R51). -/
def Part.badArrives (p : Part) : Part :=
  match p.lk.state with
  | .hello => if p.lk.helloExit.isSome then p else p.countBadParcel
  | .up => if p.lk.teardown.isSome then p else p.countBadParcel.missedParcel
  | _ => p

/-- A good sequenced parcel arrives (R29, R48, R50, R51); `deliver` is what follows its acceptance. -/
def Part.sequencedArrives (p : Part) (seq : Seq) (deliver : Part → Part) : Part :=
  if !p.listens then p
  else if seq = p.sq.expected then deliver p.acceptNumber
  else if p.sq.behind p.lk.window seq then p.duplicate
  else p.missedParcel

/-- An accepted parcel goes to the unit of its stream; one that names no stream is a link-wide error (R30, R48). -/
def Part.toStream (p : Part) (stream : Nat) (f : Fin 64 → Part) : Part :=
  match index? 64 stream with
  | some i => f i
  | none => p.linkProtocolError .streamInvalid

/-- IB takes an accepted DATA parcel (R76, R77, R129). -/
def Part.takeDataParcel (p : Part) (i : Fin 64) (d : DataParcel) : Part :=
  let e := p.stream i
  match e.state with
  | .opened =>
    if e.occupancy < e.allotment then
      let p := p.appendInbound i (.data ⟨d.index, d.first, d.last, d.mark, d.payload⟩)
      let p := p.modStream i fun e => { e with occupancy := e.occupancy + 1 }
      let p := { p with ib := { p.ib with freeCount := p.ib.freeCount - 1 } }
      (p.askClaim i).refreshRing e.landingRing
    else p.streamProtocolError i .dataExcess
  | .closing => p
  | _ => p.streamProtocolError i .dataUnexpected

/-- What an accepted WITHDRAW clears in the entry of a stream that starts winding (R9, R10, R79). -/
def StreamEntry.wind (e : StreamEntry) : StreamEntry :=
  { e with state := .winding, peerAllotment := 0, peerMaxMessage := 0, credits := 0, pendingReturns := 0 }

/-- SC takes an accepted WITHDRAW (R9 to R11). -/
def Part.takeWithdraw (p : Part) (i : Fin 64) : Part :=
  let e := p.stream i
  match e.state with
  | .offered | .localOpen | .opened =>
    let p := (p.modStream i StreamEntry.wind).queueWithdraw i
    let p := p.decideAll e.sendLine .peerClosed
    let p := p.dropStagedOfStream i
    (p.appendInbound i .withdrawMarker).refreshRing e.landingRing
  | .closed => p.streamProtocolError i .withdrawUnexpected
  | .closing | .winding | .disrupted =>
    if e.offer.isSome then
      (p.modStream i fun e => { e with offer := none, withdrawSequenced := false }).queueWithdraw i
    else if e.state = .closing && !e.peerWithdrawSeen then
      (p.modStream i fun e => { e with peerWithdrawSeen := true }).exitTest i
    else p.streamProtocolError i .withdrawUnexpected

/-- SC takes an accepted CUT (R12). -/
def Part.takeCut (p : Part) (i : Fin 64) : Part :=
  let e := p.stream i
  if e.state = .opened && !(p.queue i).any fun x => decide (x = .cutMarker) then
    (p.appendInbound i .cutMarker).refreshRing e.landingRing
  else p

/-- An ACK arrives (R56, R57), and CQ takes the completions that it decides. -/
def Part.ackArrives (p : Part) (n : Seq) : Part :=
  if !p.listens then p
  else if p.sq.within n then (p.acknowledge n).settle
  else p.countStaleAck

/-- A RETRY arrives (R57, R58), and CQ takes the completions that it decides. -/
def Part.retryArrives (p : Part) (n : Seq) : Part :=
  if !p.listens then p
  else
    let p := p.countRetryReceived
    if p.sq.within n then
      let q := p.acknowledge n
      (if n = q.sq.next then q else q.rewindTo n).settle
    else p.countStaleAck

/-! ## The transmitter's order (R108, R109) -/

/-- TX may begin a transmission: RUNNING, the framer free, no teardown pending. -/
def Part.mayTransmit (p : Part) : Bool := p.running && p.lk.transmission.isNone && p.lk.teardown.isNone

/-- Item 1 is ready: a HELLO. -/
def Part.helloReady (p : Part) : Bool :=
  p.mayTransmit && (p.lk.state = .hello || p.lk.state = .up) && p.lk.helloDue ≠ .none

/-- Item 2 is ready: the pending note. -/
def Part.noteReady (p : Part) : Bool := p.mayTransmit && p.lk.state = .up && p.sq.note ≠ .none

/-- The replay staging slot is READY for an entry. -/
def ReplaySlot.readyFor (s : ReplaySlot) (n : Seq) : Option (List Byte) :=
  match s with
  | .ready seq payload => if seq = n then some payload else none
  | _ => none

/-- Item 3 is ready: a replay (R60, R62). -/
def Part.replayReady (p : Part) : Bool :=
  p.mayTransmit && p.lk.state = .up &&
    match p.rewindEntry with
    | some ⟨seq, .data ..⟩ => (p.sq.slot.readyFor seq).isSome
    | some _ => true
    | none => false

/-- A new sequence number may be taken: the list holds fewer than W entries and nothing is being replayed
(R109). -/
def Part.roomForNew (p : Part) : Bool := decide (p.sq.replay.length < p.lk.window) && p.sq.rewind.isNone

/-- Item 4 is ready: the head of the control queue. -/
def Part.controlReady (p : Part) : Bool :=
  p.mayTransmit && p.lk.state = .up && p.roomForNew && !p.control.isEmpty

/-- Item 5 may be considered: the staged data parcel. -/
def Part.stagedReady (p : Part) : Bool := p.mayTransmit && p.lk.state = .up && p.roomForNew

/-- The framer is busy with a parcel from now on (R28). -/
def Part.transmit (p : Part) (parcel : Parcel) : Part := { p with lk := { p.lk with transmission := some parcel } }

/-- TX begins a HELLO (R35). -/
def Part.sendHello (p : Part) : Part :=
  if !p.helloReady then p
  else
    let h : HelloParcel :=
      { epoch := p.lk.localEpoch, seen := if p.lk.helloDue = .answer then p.lk.peerEpoch else 0
        code := p.lk.offeredCode, window := p.lk.offeredWindow, label := p.hi.config.nodeLabel }
    Part.transmit { p with lk := { p.lk with helloDue := .none } } (.hello h)

/-- TX begins the pending note (R52). -/
def Part.sendNote (p : Part) : Part :=
  if p.helloReady || !p.noteReady then p
  else
    let sent := p.sq.note
    let p := { p with sq := { p.sq with note := .none, unacknowledged := 0, ackTimer := .idle } }
    match sent with
    | .retry => p.countRetrySent.transmit (.retry p.sq.expected)
    | _ => p.transmit (.ack p.sq.expected)

/-- The parcel that a replay of an entry carries (R60, R62). -/
def replayParcel (e : ReplayEntry) (payload : List Byte) : Parcel :=
  match e.content with
  | .data _ i index _ _ first last mark => .data e.seq ⟨i.val, index, first, last, mark, payload⟩
  | .grant i a c m => .grant e.seq ⟨i.val, a, c, m⟩
  | .withdraw i => .withdraw e.seq i.val
  | .cut i => .cut e.seq i.val
  | .void => .void e.seq

/-- TX begins the replay of the entry at the rewind position (R60, R62). -/
def Part.sendReplay (p : Part) : Part :=
  if p.helloReady || p.noteReady || !p.replayReady then p
  else
    match p.rewindEntry with
    | none => p
    | some e =>
      let parcel := replayParcel e ((p.sq.slot.readyFor e.seq).getD [])
      let p := { p with sq := { p.sq with
        rewind := p.sq.rewindAfter e.seq
        slot := if (p.sq.slot.readyFor e.seq).isSome then .empty else p.sq.slot } }
      p.countReplayed.transmit parcel

/-- TX begins the head of the control queue (R110). -/
def Part.sendControl (p : Part) : Part :=
  if p.helloReady || p.noteReady || p.replayReady || !p.controlReady then p
  else
    match p.control with
    | [] => p
    | head :: rest =>
      let n := p.sq.next
      let p := { p with control := rest }
      match head with
      | .grant i a c m => ((p.number (.grant i a c m)).countParcelSent).transmit (.grant n ⟨i.val, a, c, m⟩)
      | .cut i => ((p.number (.cut i)).countParcelSent).transmit (.cut n i.val)
      | .withdraw i =>
        (((p.number (.withdraw i)).countParcelSent).transmit (.withdraw n i.val)).withdrawSequenced i

/-- TX rechecks the staged data parcel and begins it, or drops it (R117, R119). -/
def Part.sendData (p : Part) : Part :=
  if p.helloReady || p.noteReady || p.replayReady || p.controlReady || !p.stagedReady then p
  else
    match p.tx.staging with
    | .ready d payload =>
      if p.recheck d then p.sendStaged d payload else { p with tx := { p.tx with staging := .empty } }
    | _ => p

/-- A parcel's check word has left the part (R28, R32, R40, R41): the framer is free, and what waited for that is
applied. -/
def Part.transmissionEnds (p : Part) : Part :=
  if p.lk.transmission.isNone then p
  else
    let p := { p with lk := { p.lk with transmission := none } }
    if p.lk.teardown.isSome then p.applyTeardown
    else
      match p.lk.helloExit with
      | none => p
      | some true => p.enterOffline
      | some false => p.enterBySignal

end Sys2Proof.Machine
end

