-- ==== Sys2Proof/Machine/Commands.lean ====
section
/-! DEFINITION. The command unit: each command's checks, its effect and its completion, and the two snapshots
(Commands). -/

namespace Sys2Proof.Machine

/-! ## Checks (R165, R167, R169, R176) -/

/-- A payload code and window that LINK_START accepts (R167). -/
def linkStartValid (code window : Nat) : Bool := code ≤ 3 && 16 ≤ window && window ≤ 256

/-- The parameters of a STREAM_OPEN are in range (R169, check 2). -/
def streamOpenValid (stream sendRing landingRing allotment returnBatch maxMessage : Nat) : Bool :=
  stream ≤ 63 && sendRing ≤ 3 && landingRing ≤ 7 && 1 ≤ allotment && allotment ≤ 128
    && 64 ≤ maxMessage && maxMessage ≤ 1048576 && 1 ≤ returnBatch && returnBatch ≤ allotment

/-- The six values of a SET_TIMERS are in range (R177). -/
def TimerParameters.valid (t : TimerParameters) : Bool :=
  1 ≤ t.ackDelay && t.ackDelay ≤ 255 && 20 ≤ t.replayTimeout && t.replayTimeout ≤ 20000
    && 1 ≤ t.replayLimit && t.replayLimit ≤ 15 && 50 ≤ t.helloInterval && t.helloInterval ≤ 50000
    && 1 ≤ t.faultHoldoff && t.faultHoldoff ≤ 1000 && 1 ≤ t.gapTimeout && t.gapTimeout ≤ 65535

/-- A query's address is a multiple of 64 (R173). -/
def queryAddressValid (address : Addr) : Bool := address.toNat % 64 = 0

/-! ## Snapshots (R173 to R175) -/

/-- The index of the parcel in the data staging slot, if it is of stream `i`: a READING slot holds its parcel, wanted or
dropped, until it is EMPTY (R107, R174). -/
def Part.stagedIndex (p : Part) (i : Fin 64) : Option Nat :=
  match p.tx.staging.parcel? with
  | some d => if d.stream = i then some d.index else none
  | none => none

/-- A stream's standing at its landing ring: 0 neither, 1 holder, 2 waiting in the claim queue. -/
def Part.claimStanding (p : Part) (i : Fin 64) : Nat :=
  if (p.ringOf i).holder = some i then 1
  else if (p.ringOf i).claimQueue.any fun j => decide (j = i) then 2
  else 0

/-- The 64 bytes of a STREAM_QUERY snapshot. -/
def Part.streamSnapshot (p : Part) (i : Fin 64) : List Byte :=
  let e := p.stream i
  let o := e.offer.getD ⟨0, 0, 0⟩
  let flags := flagBit e.withdrawSequenced 0 + flagBit e.peerWithdrawSeen 1 + flagBit e.markerProcessed 2
    + flagBit e.closeWaiting 3 + flagBit e.offeredFlag 4 + flagBit e.endedFlag 5 + flagBit e.protocolFlag 6
  padTo 64
    (leBytes 1 i.val ++ leBytes 1 e.state.code ++ leBytes 1 e.sendRing.val ++ leBytes 1 e.landingRing.val
      ++ leBytes 4 e.maxInbound ++ leBytes 1 e.peerAllotment ++ leBytes 1 (flagBit e.offer.isSome 0)
      ++ leBytes 1 o.allotment ++ leBytes 1 o.credits ++ leBytes 4 e.peerMaxMessage ++ leBytes 4 o.maxMessage
      ++ leBytes 1 flags ++ leBytes 1 e.protocolCause.code ++ leBytes 1 e.protocolCount ++ leBytes 1 0
      ++ leBytes 1 e.allotment ++ leBytes 1 e.returnBatch ++ leBytes 1 e.occupancy ++ leBytes 1 e.pendingReturns
      ++ leBytes 1 (p.queue i).length ++ leBytes 1 e.credits
      ++ leBytes 1 (flagBit (p.stagedIndex i).isSome 0) ++ leBytes 1 e.sendLine.length
      ++ leBytes 2 ((p.stagedIndex i).getD 0) ++ leBytes 1 e.reassembly.mode.code
      ++ leBytes 1 (p.claimStanding i) ++ leBytes 2 e.reassembly.expected ++ leBytes 2 0
      ++ leBytes 4 e.reassembly.bytesSoFar)

/-- The 64 bytes of a LINK_QUERY snapshot. -/
def Part.linkSnapshot (p : Part) : List Byte :=
  let l := p.lk
  let c := l.counters
  padTo 64
    (leBytes 1 l.state.code ++ leBytes 1 l.localEpoch ++ leBytes 1 l.peerEpoch ++ leBytes 1 0
      ++ leBytes 4 l.peerLabel.toNat ++ leBytes 2 l.payloadSize ++ leBytes 2 l.window
      ++ leBytes 2 p.sq.next.toNat ++ leBytes 2 p.sq.replay.length ++ leBytes 2 p.sq.expected.toNat
      ++ leBytes 2 p.ib.freeCount ++ leBytes 2 p.ib.reservedTotal ++ leBytes 1 p.cq.list.length ++ leBytes 1 0
      ++ leBytes 2 p.cq.free ++ leBytes 2 p.cq.serial
      ++ leBytes 4 c.parcelsSent ++ leBytes 4 c.parcelsReplayed ++ leBytes 4 c.retriesSent
      ++ leBytes 4 c.retriesReceived ++ leBytes 4 c.badParcels ++ leBytes 4 c.duplicates
      ++ leBytes 4 c.staleAcks ++ leBytes 4 c.protocolErrors ++ leBytes 4 c.linkFaults)

/-- CM takes a snapshot and begins its write: phase WRITING (R173). -/
def Part.beginSnapshot (p : Part) (address : Addr) (bytes : List Byte) : Part :=
  Part.issue
    { p with cm := { p.cm with command := p.cm.command.map fun c => { c with phase := .writing p.lk.counters } } }
    ⟨.snapshotWrite, address, 64, bytes⟩

/-- A query's snapshot write ends: the command completes, and a clearing LINK_QUERY reduces the counters by what
it copied, if the write succeeded (R44, R173, R175). -/
def Part.snapshotEnds (p : Part) (ok : Bool) : Part :=
  match p.cm.command with
  | some ⟨command, _, .writing copied⟩ =>
    if !ok then p.completeCommand .hostWriteFault
    else
      match command with
      | .linkQuery true _ => (p.modCounters fun c => c.minus copied).completeCommand .ok
      | _ => p.completeCommand .ok
  | _ => p

/-! ## The commands (R167 to R176) -/

/-- LINK_START (R33, R167). -/
def Part.linkStart (p : Part) (code window : Nat) : Part :=
  if p.lk.state ≠ .offline then p.completeCommand .badState
  else if !linkStartValid code window then p.completeCommand .badParam
  else
    (Part.enterBySignal { p with lk := { p.lk with offeredCode := code, offeredWindow := window } }).completeCommand .ok

/-- LINK_STOP (R40, R168). -/
def Part.linkStop (p : Part) : Part :=
  match p.lk.state with
  | .offline => p.completeCommand .badState
  | .awaitSignal | .holdoff => p.enterOffline
  | .hello =>
    if p.lk.transmission.isSome then
      { p with lk := { p.lk with helloTimer := .idle, helloDue := .none, helloExit := some true } }
    else p.enterOffline
  | .up =>
    match p.lk.teardown with
    | none => p.beginTeardown .stopped none
    | some t => { p with lk := { p.lk with teardown := some { t with stopRequested := true } } }

/-- STREAM_OPEN (R72, R169, R170). -/
def Part.streamOpen (p : Part) (stream sendRing landingRing allotment returnBatch maxMessage : Nat) : Part :=
  if !p.listens then p.completeCommand .linkNotUp
  else if !streamOpenValid stream sendRing landingRing allotment returnBatch maxMessage then
    p.completeCommand .badParam
  else
    match index? 64 stream, index? 4 sendRing, index? 8 landingRing with
    | some i, some s, some r =>
      if (p.stream i).state ≠ .closed && (p.stream i).state ≠ .offered then p.completeCommand .badState
      else if 512 < p.ib.reservedTotal + allotment then p.completeCommand .noSpace
      else (p.openStream i s r allotment returnBatch maxMessage).completeCommand .ok
    | _, _, _ => p.completeCommand .badParam

/-- The contexts of a stream that a local close cancels: READY and SENDING (R13, R102). -/
def Part.cancelled (p : Part) (i : Fin 64) : List (Fin 32) :=
  (p.stream i).sendLine.filter fun c => decide ((p.context c).state = .ready) || decide ((p.context c).state = .sending)

/-- A close that waits: the stream enters CLOSING with close waiting set, what the peer granted is forgotten, and a
WITHDRAW is queued (R13, R15). -/
def Part.startClosing (p : Part) (i : Fin 64) : Part :=
  (p.modStream i fun e =>
    { e with state := .closing, closeWaiting := true, peerAllotment := 0, peerMaxMessage := 0, credits := 0 }).queueWithdraw i

/-- STREAM_CLOSE of a stream in OPEN, or in LOCAL_OPEN once its first GRANT has been sent (R13). -/
def Part.closeOpen (p : Part) (i : Fin 64) : Part :=
  let p := ((p.startClosing i).discardQueue i).release i
  let p := (p.decideAll (p.cancelled i) .cancelled).dropStagedOfStream i
  p.closeDelivery i

/-- STREAM_CLOSE of a stream in WINDING (R16). -/
def Part.closeWinding (p : Part) (i : Fin 64) : Part :=
  let p := p.modStream i fun e => { e with closeWaiting := true, markerProcessed := true }
  ((p.discardQueue i).release i).closeDelivery i

/-- STREAM_CLOSE of a stream in DISRUPTED (R16): it enters CLOSING while a reply WITHDRAW of it still waits, and
otherwise leaves at once. -/
def Part.closeDisrupted (p : Part) (i : Fin 64) : Part :=
  if p.withdrawWaits i then
    p.modStream i fun e =>
      { e with state := .closing, peerWithdrawSeen := true, closeWaiting := true, withdrawSequenced := false }
  else (p.modStream i StreamEntry.leave).completeCommand .ok

/-- STREAM_CLOSE (R13 to R16, R171). -/
def Part.streamClose (p : Part) (stream : Nat) : Part :=
  match index? 64 stream with
  | none => p.completeCommand .badParam
  | some i =>
    match (p.stream i).state with
    | .closed | .closing => p.completeCommand .badState
    | .localOpen =>
      if p.grantWaits i then
        (((p.removeGrant i).release i).modStream i StreamEntry.cleared).completeCommand .ok
      else p.closeOpen i
    | .opened => p.closeOpen i
    | .offered => p.startClosing i
    | .winding => p.closeWinding i
    | .disrupted => p.closeDisrupted i

/-- STREAM_QUERY (R173, R174). -/
def Part.streamQuery (p : Part) (stream : Nat) (address : Addr) : Part :=
  match index? 64 stream with
  | none => p.completeCommand .badParam
  | some i =>
    if queryAddressValid address then p.beginSnapshot address (p.streamSnapshot i) else p.completeCommand .badParam

/-- LINK_QUERY (R173, R175). -/
def Part.linkQuery (p : Part) (address : Addr) : Part :=
  if queryAddressValid address then p.beginSnapshot address p.linkSnapshot else p.completeCommand .badParam

/-- SET_TIMERS (R176). -/
def Part.setTimers (p : Part) (t : TimerParameters) : Part :=
  if p.lk.state ≠ .offline then p.completeCommand .badState
  else if !t.valid then p.completeCommand .badParam
  else Part.completeCommand { p with cm := { p.cm with timers := t } } .ok

/-- CM acts on the command in progress (R165). -/
def Part.act (p : Part) : Command → Part
  | .linkStart code window => p.linkStart code window
  | .linkStop => p.linkStop
  | .streamOpen stream s r a b m => p.streamOpen stream s r a b m
  | .streamClose stream => p.streamClose stream
  | .streamQuery stream address => p.streamQuery stream address
  | .linkQuery _ address => p.linkQuery address
  | .setTimers a l r h f g => p.setTimers ⟨a, r, l, h, f, g⟩
  | .unknown _ => p.completeCommand .unknownCommand

/-- CM takes a command's copy: it becomes the command in progress, in phase ACTING, and CM acts on it (R165). -/
def Part.takeCommand (p : Part) (tag : BitVec 32) (command : Command) : Part :=
  Part.act { p with cm := { p.cm with command := some ⟨command, tag, .acting⟩ } } command

end Sys2Proof.Machine
end

