-- ==== Sys2Proof/Machine/Custody.lean ====
section
/-! DEFINITION. The custody protocol of the thirteen consumer rings, and what each unit does with the copy of a
record (Rings, Custody and Send Contexts). -/

namespace Sys2Proof.Machine

/-- The unit that reads a ring has room for its next record (R92). -/
def Part.hasRoom (p : Part) : RingId → Bool
  | .command => p.cm.command.isNone
  | .send r => (p.filling? r).isSome || (p.freeContext? r).isSome
  | .landing r => (p.landRing r).cache.length < 4

/-- A read of the record at the ring's position begins; the ring is READING (R88, R90). -/
def Part.beginRead (p : Part) (ring : RingId) : Part :=
  let at_ := (p.consumer ring).position
  Part.issue (p.modConsumer ring fun c => { c with state := .reading })
    ⟨.ringRead ring, recordAddress (p.ringConfig ring) at_, 32, []⟩

/-- The ring begins to read its next record if the unit has room, and is HELD otherwise (R88, R90). -/
def Part.readOrHold (p : Part) (ring : RingId) : Part :=
  if p.hasRoom ring then p.beginRead ring else p.modConsumer ring fun c => { c with state := .held }

/-- A notification of a consumer ring while the part is RUNNING (R88). -/
def Part.notifyRing (p : Part) (ring : RingId) : Part :=
  match (p.consumer ring).state with
  | .idle => p.readOrHold ring
  | .reading => p.modConsumer ring fun c => { c with renotify := true }
  | .returning | .held => p

/-- The ring's part in taking a record's copy: the renotify flag clears, the position advances, and the custody
write of the record begins (R89). -/
def Part.returnRecord (p : Part) (ring : RingId) : Part :=
  let at_ := (p.consumer ring).position
  let config := p.ringConfig ring
  Part.issue
    (p.modConsumer ring fun c =>
      { c with renotify := false, position := nextIndex c.position config.length, state := .returning })
    ⟨.custodyWrite ring, recordAddress config at_ + 0x1F, 1, [0]⟩

/-- A record's read has brought a record that is not handed over (R89). -/
def Part.recordNotHanded (p : Part) (ring : RingId) : Part :=
  if (p.consumer ring).renotify then
    (p.modConsumer ring fun c => { c with renotify := false }).beginRead ring
  else p.modConsumer ring fun c => { c with state := .idle }

/-- What a record's read brings its unit, by the ring's kind. -/
inductive Copy where
  | command (tag : BitVec 32) (command : Command)
  | send (r : Fin 4) (record : SendRecord)
  | landing (r : Fin 8) (address : Addr) (length : Nat)

/-- The ring a copy came from. -/
def Copy.ring : Copy → RingId
  | .command .. => .command
  | .send r _ => .send r
  | .landing r .. => .landing r

/-- The copy that the bytes of a record make (R194, R195). -/
def readCopy (record : List Byte) : RingId → Copy
  | .command => .command (readTag record) (readCommand record)
  | .send r => .send r (readSendRecord record)
  | .landing r => .landing r (readLandingRecord record).1 (readLandingRecord record).2

/-- The unit acts on a copy, whose record stood at a ring index (R94, R125, R165). -/
def Part.useCopy (p : Part) (position : Nat) : Copy → Part
  | .command tag command => p.takeCommand tag command
  | .send r record => p.takeSendRecord r position record
  | .landing r address length => p.takeLandingRecord r position address length

/-- A record handed over to the part has been read: the ring returns it and its unit acts on the copy at once, and
CQ takes what that offers (R89). -/
def Part.takeCopy (p : Part) (copy : Copy) : Part :=
  let position := (p.consumer copy.ring).position
  ((p.returnRecord copy.ring).useCopy position copy).settle

/-- A record read ends (R89, R91). -/
def Part.ringReadEnds (p : Part) (ring : RingId) (result : ReadEnd) : Part :=
  p.onReadEnd (.ringRead ring) result .running fun p =>
    match result with
    | .failed => p.enterFault .ringRead
    | .data record =>
      if recordIsPart record then p.takeCopy (readCopy record ring) else p.recordNotHanded ring

/-- A record read ends with this record handed over to the part. -/
def Part.recordArrives (p : Part) (copy : Copy) : Part :=
  p.onAccessEnd (.ringRead copy.ring) .running fun p => p.takeCopy copy

/-- A custody write ends (R90, R91). -/
def Part.custodyWriteEnds (p : Part) (ring : RingId) (ok : Bool) : Part :=
  p.onAccessEnd (.custodyWrite ring) .running fun p =>
    if ok then p.readOrHold ring else p.enterFault .custodyWrite

/-- A HELD ring reads its next record once its unit has room (R90). -/
def Part.heldRead (p : Part) (ring : RingId) : Part :=
  if p.running && (p.consumer ring).state = .held && p.hasRoom ring then p.beginRead ring else p

/-! ## NOTIFY (R88, R149, R150, R195) -/

/-- What a NOTIFY selector names. -/
inductive Selector where
  | ring (ring : RingId)
  | completion
  | nothing
deriving DecidableEq, Repr

/-- The selector of a value written to NOTIFY: bits 7 to 0. -/
def notifySelector (value : BitVec 32) : Selector :=
  let n := value.toNat % 256
  if n = 0x00 then .ring .command
  else if n = 0x30 then .completion
  else if 0x10 ≤ n then
    match index? 4 (n - 0x10), index? 8 (n - 0x20) with
    | some r, _ => .ring (.send r)
    | none, some r => if 0x20 ≤ n then .ring (.landing r) else .nothing
    | none, none => .nothing
  else .nothing

/-- The count of a value written to NOTIFY: bits 27 to 16. -/
def notifyCount (value : BitVec 32) : Nat := value.toNat / 65536 % 4096

/-- The host returns completion ring slots (R149). -/
def Part.returnSlots (p : Part) (count : Nat) : Part :=
  if 1 ≤ count && p.cq.free + count ≤ p.hi.config.completion.length then
    { p with cq := { p.cq with free := p.cq.free + count } }
  else p.raise eventNotifyError

/-- A write to NOTIFY (R88, R149, R150); while the part is not RUNNING it is ignored. -/
def Part.notify (p : Part) (value : BitVec 32) : Part :=
  if !p.running then p
  else
    match notifySelector value with
    | .ring ring => p.notifyRing ring
    | .completion => p.returnSlots (notifyCount value)
    | .nothing => p.raise eventNotifyError

/-! ## The configuration load and CONTROL (R183, R185 to R187) -/

/-- A load begins (R185). -/
def Part.beginLoad (p : Part) : Part :=
  let address : Addr := p.hi.configHi ++ p.hi.configLo
  let p := { p with hi := { p.hi with
    deviceState := .loading, loadAddress := address, loadAbandoned := false } }
  if address.toNat % 256 = 0 then p.issue ⟨.configRead, address, 256, []⟩ else p.enterFault .configInvalid

/-- The block a load has read is checked, and the part enters RUNNING or FAULT (R146, R186). -/
def Part.checkConfig (p : Part) (block : List Byte) : Part :=
  let config := readConfig block
  if config.valid then
    { p with
      hi := { p.hi with deviceState := .running, config := config }
      cq := { p.cq with free := config.completion.length } }
  else p.enterFault .configInvalid

/-- An abandoned load's read has ended (R187). -/
def Part.abandonedLoadEnds (p : Part) : Part :=
  if p.hi.enable then p.beginLoad else { p with hi := { p.hi with deviceState := .disabled } }

/-- The configuration read ends (R185). -/
def Part.configReadEnds (p : Part) (result : ReadEnd) : Part :=
  p.onReadEnd .configRead result .loading fun p =>
    if p.hi.loadAbandoned then p.abandonedLoadEnds
    else
      match result with
      | .failed => p.enterFault .configRead
      | .data block => p.checkConfig block

/-- A write to CONTROL (R183): bit 0 is ENABLE, bit 1 is RESET. -/
def Part.writeControl (p : Part) (value : BitVec 32) : Part :=
  let enable := value.getLsbD 0
  if value.getLsbD 1 then p.functionReset
  else if enable = p.hi.enable then p
  else
    let q := { p with hi := { p.hi with enable := enable } }
    match p.hi.deviceState, enable with
    | .disabled, true => q.beginLoad
    | .loading, false => { q with hi := { q.hi with loadAbandoned := true } }
    | .running, false => p.functionReset
    | _, _ => q

/-! ## The other registers (R161, R162, R181, R182) -/

/-- A write to EVENT clears each bit written as 1 (R161). -/
def Part.writeEvent (p : Part) (value : BitVec 32) : Part :=
  p.setEventMask (p.hi.event &&& ~~~(value.setWidth 3)) p.hi.intMask

/-- A write to INT_MASK (R162). -/
def Part.writeMask (p : Part) (value : BitVec 32) : Part := p.setEventMask p.hi.event (value.setWidth 3)

/-- A write to the register at an offset of the window (R181); IDENT, STATUS and unused offsets ignore it. -/
def Part.writeRegister (p : Part) (offset : BitVec 12) (value : BitVec 32) : Part :=
  match offset.toNat with
  | 0x04 => p.writeControl value
  | 0x0C => p.writeEvent value
  | 0x10 => p.writeMask value
  | 0x14 => { p with hi := { p.hi with configLo := value } }
  | 0x18 => { p with hi := { p.hi with configHi := value } }
  | 0x1C => p.notify value
  | _ => p

/-! ## Ends of the other host accesses (R188, R189, R193) -/

/-- One host read of TX's gathering ends, and CQ takes what that offers (R116, R120). -/
def Part.gatherReadEnds (p : Part) (k : Nat) (result : ReadEnd) : Part :=
  p.onReadEnd (.gatherRead k) result .running fun p => (p.gatherEnd k result).settle

/-- One host read of SQ's refetch ends, and CQ takes what that offers (R62, R67). -/
def Part.refetchReadEnds (p : Part) (k : Nat) (result : ReadEnd) : Part :=
  p.onReadEnd (.refetchRead k) result .running fun p => (p.refetchRead k result).settle

/-- A landing write ends, and CQ takes what that offers (R135, R141). -/
def Part.landingWriteEnds (p : Part) (r : Fin 8) (k : Nat) (ok : Bool) : Part :=
  p.onAccessEnd (.landingWrite r k) .running fun p => (p.landingWriteEnd r k ok).settle

/-- A query's snapshot write ends, and CQ takes the command's completion (R173). -/
def Part.snapshotWriteEnds (p : Part) (ok : Bool) : Part :=
  p.onAccessEnd .snapshotWrite .running fun p => (p.snapshotEnds ok).settle

/-- A completion record's write ends (R147, R159). -/
def Part.completionWriteEnds (p : Part) (ok : Bool) : Part :=
  p.onAccessEnd .completionWrite .running fun p =>
    if ok then Part.countRecord { p with cq := { p.cq with writer := .idle } }
    else p.enterFault .completionWrite

/-- An access of this run ends in failure. -/
def Part.accessFails (p : Part) : AccessKind → Part
  | .configRead => p.configReadEnds .failed
  | .ringRead ring => p.ringReadEnds ring .failed
  | .custodyWrite ring => p.custodyWriteEnds ring false
  | .gatherRead k => p.gatherReadEnds k .failed
  | .refetchRead k => p.refetchReadEnds k .failed
  | .landingWrite r k => p.landingWriteEnds r k false
  | .snapshotWrite => p.snapshotWriteEnds false
  | .completionWrite => p.completionWriteEnds false

/-- An access has timed out: the host port may still deliver its answer (R188, log entry 23). -/
def Part.expectLate (p : Part) (a : Access) : Part := { p with hi := { p.hi with timedOut := p.hi.timedOut ++ [a] } }

/-- The answer to an access issued before a function reset, or to one that has timed out: it is delivered to no unit
(R188, R193). -/
def Part.oldAccessEnds (p : Part) : OldAccess → Part
  | .stale k => { p with hi := { p.hi with stale := p.hi.stale.eraseIdx k } }
  | .timedOut k => { p with hi := { p.hi with timedOut := p.hi.timedOut.eraseIdx k } }

/-- A host access reaches 50 ms without an answer and ends in failure (R188); one issued before a function reset ends
for no unit (R193). -/
def Part.accessTimesOut (p : Part) : AccessRef → Part
  | .live kind =>
    match p.access? kind with
    | none => p
    | some a => (p.expectLate a).accessFails kind
  | .stale k =>
    match p.hi.stale[k]? with
    | none => p
    | some a => (p.oldAccessEnds (.stale k)).expectLate a

end Sys2Proof.Machine
end

