-- ==== Sys2Proof/Machine/Arrivals.lean ====
section
/-! DEFINITION. Arrivals by kind, as the framer passes them on, and the events that have no other operation of
their own (Link Bring-up and Parcel Kinds; Sequencing, Acknowledgement and Replay; Completions and Interrupts). -/

namespace Sys2Proof.Machine

/-! ## Arrivals (R29, R48) -/

/-- The longest DATA payload that the framer accepts (R29): in UP the payload size in force, which is read only there
(R31), and elsewhere the longest that the two-byte length field spells (log entry 16). -/
def Part.payloadLimit (p : Part) : Nat := if p.lk.state = .up then p.lk.payloadSize else 65535

/-- A DATA payload length that the framer accepts (R29). -/
def Part.payloadFits (p : Part) (d : DataParcel) : Bool :=
  1 ≤ d.payload.length && d.payload.length ≤ p.payloadLimit

/-- A DATA parcel with its check word correct is received: it arrives, or is bad by its payload length (R29, R48,
R76, log entry 16). -/
def Part.dataArrives (p : Part) (seq : Seq) (d : DataParcel) : Part :=
  if p.payloadFits d then
    p.sequencedArrives seq fun p => p.toStream d.stream fun i => p.takeDataParcel i d
  else p.badArrives

/-- A GRANT arrives (R7, R48). -/
def Part.grantArrives (p : Part) (seq : Seq) (g : GrantParcel) : Part :=
  p.sequencedArrives seq fun p => p.toStream g.stream fun i => p.takeGrant i g

/-- A WITHDRAW arrives (R9 to R11, R48); CQ takes the completions that it decides. -/
def Part.withdrawArrives (p : Part) (seq : Seq) (stream : Nat) : Part :=
  p.sequencedArrives seq fun p => (p.toStream stream fun i => p.takeWithdraw i).settle

/-- A CUT arrives (R12, R48). -/
def Part.cutArrives (p : Part) (seq : Seq) (stream : Nat) : Part :=
  p.sequencedArrives seq fun p => p.toStream stream fun i => p.takeCut i

/-- A VOID arrives: once accepted it is dropped (R48). -/
def Part.voidArrives (p : Part) (seq : Seq) : Part := p.sequencedArrives seq fun p => p

/-- A parcel that passed the framer's checks arrives (R29). -/
def Part.parcelArrives (p : Part) : Parcel → Part
  | .data seq d => p.dataArrives seq d
  | .grant seq g => p.grantArrives seq g
  | .withdraw seq stream => p.withdrawArrives seq stream
  | .cut seq stream => p.cutArrives seq stream
  | .void seq => p.voidArrives seq
  | .ack n => p.ackArrives n
  | .retry n => p.retryArrives n
  | .hello h => p.helloArrives h

/-- Bytes are received: a bad parcel, or the parcel they spell (R29, R196). -/
def Part.bytesArrive (p : Part) (bytes : List Byte) : Part :=
  match readParcel p.payloadLimit bytes with
  | some parcel => p.parcelArrives parcel
  | none => p.badArrives

/-! ## Timers of SQ and CQ -/

/-- The ack delay timer expires (R49). -/
def Part.ackDelayExpires (p : Part) : Part :=
  if p.sq.ackTimer.isRunning then Part.noteAck { p with sq := { p.sq with ackTimer := .idle } } else p

/-- The interrupt holdoff timer expires (R160). -/
def Part.holdoffExpires (p : Part) : Part := if p.cq.holdoffTimer.isRunning then p.announce else p

/-! ## Delivery -/

/-- DL takes the next deliverable head while the part is RUNNING, and CQ takes what that decides (R132, R145). -/
def Part.deliveryTakes (p : Part) : Part := if p.running then p.deliver.settle else p

end Sys2Proof.Machine
end

