-- ==== Sys2Proof/Machine/ArrivalFamily.lean ====
section
/-! DEFINITION. Meanings of the arrivals from the peer (R7, R9, R12, R29, R36, R48, R56, R58, R76). -/

namespace Sys2Proof.Machine

/-- DATA_ARRIVAL (R29, R48, R76). -/
def execDataArrival (seq : Seq) (d : DataParcel) (s : State) : Host.Outcome State Fault Refusal :=
  s.apply fun p => p.dataArrives seq d

/-- GRANT_ARRIVAL (R7, R48). -/
def execGrantArrival (seq : Seq) (g : GrantParcel) (s : State) : Host.Outcome State Fault Refusal :=
  s.apply fun p => p.grantArrives seq g

/-- WITHDRAW_ARRIVAL (R9, R48). -/
def execWithdrawArrival (seq : Seq) (stream : Nat) (s : State) : Host.Outcome State Fault Refusal :=
  s.apply fun p => p.withdrawArrives seq stream

/-- CUT_ARRIVAL (R12, R48). -/
def execCutArrival (seq : Seq) (stream : Nat) (s : State) : Host.Outcome State Fault Refusal :=
  s.apply fun p => p.cutArrives seq stream

/-- VOID_ARRIVAL (R48). -/
def execVoidArrival (seq : Seq) (s : State) : Host.Outcome State Fault Refusal :=
  s.apply fun p => p.voidArrives seq

/-- ACK_ARRIVAL (R56); an OFFERED flag that it sets is set before CQ takes what it decides (log entry 35). -/
def execAckArrival (expected : Seq) (s : State) : Host.Outcome State Fault Refusal :=
  s.apply fun p => p.ackArrives expected

/-- RETRY_ARRIVAL (R58). -/
def execRetryArrival (expected : Seq) (s : State) : Host.Outcome State Fault Refusal :=
  s.apply fun p => p.retryArrives expected

/-- HELLO_ARRIVAL (R36, R38). -/
def execHelloArrival (h : HelloParcel) (s : State) : Host.Outcome State Fault Refusal :=
  s.apply fun p => p.helloArrives h

/-- BAD_PARCEL (R29): bytes arrive that fail the framer's checks. Bytes that pass them are the parcel they spell
(log entry 20). -/
def execBadParcel (bytes : List Byte) (s : State) : Host.Outcome State Fault Refusal :=
  s.apply fun p => p.bytesArrive bytes

end Sys2Proof.Machine
end

