-- ==== Sys2Proof/Machine/CommandFamily.lean ====
section
/-! DEFINITION. Meanings of the commands of the command ring (R167 to R176). -/

namespace Sys2Proof.Machine

/-- LINK_START (R167). -/
def execLinkStart (tag : BitVec 32) (code window : Nat) (s : State) : Host.Outcome State Fault Refusal :=
  s.apply fun p => p.recordArrives (.command tag (.linkStart code window))

/-- LINK_STOP (R168). -/
def execLinkStop (tag : BitVec 32) (s : State) : Host.Outcome State Fault Refusal :=
  s.apply fun p => p.recordArrives (.command tag .linkStop)

/-- STREAM_OPEN (R169). -/
def execStreamOpen (tag : BitVec 32) (stream sendRing landingRing allotment returnBatch maxMessage : Nat)
    (s : State) : Host.Outcome State Fault Refusal :=
  s.apply fun p =>
    p.recordArrives (.command tag (.streamOpen stream sendRing landingRing allotment returnBatch maxMessage))

/-- STREAM_CLOSE (R171). -/
def execStreamClose (tag : BitVec 32) (stream : Nat) (s : State) : Host.Outcome State Fault Refusal :=
  s.apply fun p => p.recordArrives (.command tag (.streamClose stream))

/-- STREAM_QUERY (R174). -/
def execStreamQuery (tag : BitVec 32) (stream : Nat) (address : Addr)
    (s : State) : Host.Outcome State Fault Refusal :=
  s.apply fun p => p.recordArrives (.command tag (.streamQuery stream address))

/-- LINK_QUERY (R175). -/
def execLinkQuery (tag : BitVec 32) (clear : Bool) (address : Addr) (s : State) : Host.Outcome State Fault Refusal :=
  s.apply fun p => p.recordArrives (.command tag (.linkQuery clear address))

/-- SET_TIMERS (R176). -/
def execSetTimers (tag : BitVec 32) (ackDelay replayLimit replayTimeout helloInterval faultHoldoff gapTimeout : Nat)
    (s : State) : Host.Outcome State Fault Refusal :=
  s.apply fun p =>
    p.recordArrives (.command tag (.setTimers ackDelay replayLimit replayTimeout helloInterval faultHoldoff gapTimeout))

/-- UNKNOWN_COMMAND (R165). -/
def execUnknownCommand (tag : BitVec 32) (code : Nat) (s : State) : Host.Outcome State Fault Refusal :=
  s.apply fun p => p.recordArrives (.command tag (.unknown code))

/-- SNAPSHOT_WRITE_END (R173). -/
def execSnapshotWriteEnd (ok : Bool) (s : State) : Host.Outcome State Fault Refusal :=
  s.apply fun p => p.snapshotWriteEnds ok

end Sys2Proof.Machine
end

