-- ==== Sys2Proof/Machine/CompletionFamily.lean ====
section
/-! DEFINITION. Meanings of the commands of completions and interrupt moderation (R147, R160). -/

namespace Sys2Proof.Machine

/-- COMPLETION_WRITE_BEGIN (R147). -/
def execCompletionWriteBegin (s : State) : Host.Outcome State Fault Refusal :=
  s.apply Part.writeNext

/-- COMPLETION_WRITE_END (R147, R159). -/
def execCompletionWriteEnd (ok : Bool) (s : State) : Host.Outcome State Fault Refusal :=
  s.apply fun p => p.completionWriteEnds ok

/-- INTERRUPT_HOLDOFF_EXPIRY (R160). -/
def execInterruptHoldoffExpiry (s : State) : Host.Outcome State Fault Refusal :=
  s.apply Part.holdoffExpires

end Sys2Proof.Machine
end

