-- ==== Sys2Proof/Machine/DeliveryFamily.lean ====
section
/-! DEFINITION. Meanings of the commands of delivery (R132, R135, R140). -/

namespace Sys2Proof.Machine

/-- DELIVERY_TAKE (R132). -/
def execDeliveryTake (s : State) : Host.Outcome State Fault Refusal :=
  s.apply fun p => p.deliveryTakes

/-- LANDING_WRITE_END (R135). -/
def execLandingWriteEnd (ring : Fin 8) (k : Nat) (ok : Bool) (s : State) : Host.Outcome State Fault Refusal :=
  s.apply fun p => p.landingWriteEnds ring k ok

/-- GAP_TIMER_EXPIRY (R140). -/
def execGapTimerExpiry (ring : Fin 8) (s : State) : Host.Outcome State Fault Refusal :=
  s.apply fun p => (p.gapExpiry ring).settle

end Sys2Proof.Machine
end

