-- ==== Sys2Proof/Machine/HostFamily.lean ====
section
/-! DEFINITION. Meanings of the commands of resets, registers and host accesses (R88, R149, R150, R161, R162, R181 to R193). -/

namespace Sys2Proof.Machine

/-- POWER_ON_RESET (R191): every unit takes its power-on reset value. -/
def execPowerOnReset (s : State) : Host.Outcome State Fault Refusal :=
  s.apply Part.powerOnReset

/-- CONTROL_RESET (R183, R192): a CONTROL write whose RESET bit is 1. -/
def execControlReset (value : BitVec 32) (s : State) : Host.Outcome State Fault Refusal :=
  s.apply fun p => p.writeControl value

/-- CONTROL_ENABLE (R183, R185, R187): a CONTROL write that takes ENABLE from 0 to 1. -/
def execControlEnable (value : BitVec 32) (s : State) : Host.Outcome State Fault Refusal :=
  s.apply fun p => p.writeControl value

/-- CONTROL_DISABLE (R183, R187): a CONTROL write that takes ENABLE from 1 to 0. -/
def execControlDisable (value : BitVec 32) (s : State) : Host.Outcome State Fault Refusal :=
  s.apply fun p => p.writeControl value

/-- EVENT_WRITE (R161, R162). -/
def execEventWrite (value : BitVec 32) (s : State) : Host.Outcome State Fault Refusal :=
  s.apply fun p => p.writeEvent value

/-- INT_MASK_WRITE (R162). -/
def execIntMaskWrite (value : BitVec 32) (s : State) : Host.Outcome State Fault Refusal :=
  s.apply fun p => p.writeMask value

/-- REGISTER_WRITE_OTHER (R181, R182): a write at another offset of the window. -/
def execRegisterWriteOther (offset : BitVec 12) (value : BitVec 32) (s : State) : Host.Outcome State Fault Refusal :=
  s.apply fun p => p.writeRegister offset value

/-- RING_NOTIFY (R88): a NOTIFY write whose selector names a consumer ring. -/
def execRingNotify (value : BitVec 32) (s : State) : Host.Outcome State Fault Refusal :=
  s.apply fun p => p.notify value

/-- COMPLETION_RETURN (R149): a NOTIFY write with the completion selector. -/
def execCompletionReturn (value : BitVec 32) (s : State) : Host.Outcome State Fault Refusal :=
  s.apply fun p => p.notify value

/-- NOTIFY_INVALID_SELECTOR (R150): a NOTIFY write whose selector names no ring. -/
def execNotifyInvalidSelector (value : BitVec 32) (s : State) : Host.Outcome State Fault Refusal :=
  s.apply fun p => p.notify value

/-- CONFIG_READ_END (R185 to R187). -/
def execConfigReadEnd (result : ReadEnd) (s : State) : Host.Outcome State Fault Refusal :=
  s.apply fun p => p.configReadEnds result

/-- HOST_ACCESS_TIMEOUT (R188). -/
def execHostAccessTimeout (access : AccessRef) (s : State) : Host.Outcome State Fault Refusal :=
  s.apply fun p => p.accessTimesOut access

/-- STALE_ACCESS_END (R188, R193): the end of an access that no unit waits for reaches no unit, whatever it brings. A
late answer to an access that has timed out is such an end (log entry 23). -/
def execStaleAccessEnd (access : OldAccess) (_result : ReadEnd) (s : State) : Host.Outcome State Fault Refusal :=
  s.apply fun p => p.oldAccessEnds access

end Sys2Proof.Machine
end

