-- ==== Sys2Proof/Machine/LinkFamily.lean ====
section
/-! DEFINITION. Meanings of the commands of the signal, the link's timers and the teardown (R32, R34, R39, R42). -/

namespace Sys2Proof.Machine

/-- SIGNAL_ACQUIRED (R32). -/
def execSignalAcquired (s : State) : Host.Outcome State Fault Refusal :=
  s.apply Part.signalAcquired

/-- SIGNAL_LOST (R32). -/
def execSignalLost (s : State) : Host.Outcome State Fault Refusal :=
  s.apply Part.signalLost

/-- HELLO_TIMER_EXPIRY (R34). -/
def execHelloTimerExpiry (s : State) : Host.Outcome State Fault Refusal :=
  s.apply Part.helloExpiry

/-- HOLDOFF_TIMER_EXPIRY (R39). -/
def execHoldoffTimerExpiry (s : State) : Host.Outcome State Fault Refusal :=
  s.apply Part.holdoffExpiry

/-- TEARDOWN_APPLY (R42): a teardown that is pending with the framer free is applied; CQ takes what the units then offer
(R155). The command that frees the framer, or begins a teardown with it free, has applied it already (log entry 6). -/
def execTeardownApply (s : State) : Host.Outcome State Fault Refusal :=
  s.apply fun p => p.applyTeardown.settle

end Sys2Proof.Machine
end

