-- ==== Sys2Proof/Machine/RingFamily.lean ====
section
/-! DEFINITION. Meanings of the commands of the consumer rings and their records (R89, R90, R95 to R97, R125). -/

namespace Sys2Proof.Machine

/-- RING_READ_END (R89). -/
def execRingReadEnd (ring : RingId) (result : ReadEnd) (s : State) : Host.Outcome State Fault Refusal :=
  s.apply fun p => p.ringReadEnds ring result

/-- CUSTODY_WRITE_END (R90). -/
def execCustodyWriteEnd (ring : RingId) (ok : Bool) (s : State) : Host.Outcome State Fault Refusal :=
  s.apply fun p => p.custodyWriteEnds ring ok

/-- HELD_RING_READ (R90). -/
def execHeldRingRead (ring : RingId) (s : State) : Host.Outcome State Fault Refusal :=
  s.apply fun p => p.heldRead ring

/-- SEND_HEAD_RECORD (R95): the read of a send ring brings a HEAD record handed over to the part. -/
def execSendHeadRecord (ring : Fin 4) (h : HeadRecord) (s : State) : Host.Outcome State Fault Refusal :=
  s.apply fun p => p.recordArrives (.send ring (.head h))

/-- SEND_FRAGMENT_RECORD (R97): a record comes where the ring expects a FRAGMENT. -/
def execSendFragmentRecord (ring : Fin 4) (record : SendRecord) (s : State) : Host.Outcome State Fault Refusal :=
  s.apply fun p => p.recordArrives (.send ring record)

/-- STRAY_RECORD (R96): a record other than a HEAD comes where the ring expects one. -/
def execStrayRecord (ring : Fin 4) (record : SendRecord) (s : State) : Host.Outcome State Fault Refusal :=
  s.apply fun p => p.recordArrives (.send ring record)

/-- LANDING_RECORD (R125, R126). -/
def execLandingRecord (ring : Fin 8) (address : Addr) (length : Nat) (s : State) : Host.Outcome State Fault Refusal :=
  s.apply fun p => p.recordArrives (.landing ring address length)

end Sys2Proof.Machine
end

