-- ==== Sys2Proof/Machine/TransmitFamily.lean ====
section
/-! DEFINITION. Meanings of the commands of sequencing timers, transmission, gathering and refetching (R28, R35, R49, R52,
R59 to R62, R108 to R120). -/

namespace Sys2Proof.Machine

/-- ACK_DELAY_EXPIRY (R49). -/
def execAckDelayExpiry (s : State) : Host.Outcome State Fault Refusal :=
  s.apply Part.ackDelayExpires

/-- REPLAY_TIMER_EXPIRY (R59). -/
def execReplayTimerExpiry (s : State) : Host.Outcome State Fault Refusal :=
  s.apply Part.replayExpiry

/-- SEND_HELLO (R35). -/
def execSendHello (s : State) : Host.Outcome State Fault Refusal :=
  s.apply Part.sendHello

/-- SEND_PENDING_NOTE (R52). -/
def execSendPendingNote (s : State) : Host.Outcome State Fault Refusal :=
  s.apply Part.sendNote

/-- SEND_REPLAY (R60). -/
def execSendReplay (s : State) : Host.Outcome State Fault Refusal :=
  s.apply Part.sendReplay

/-- SEND_CONTROL_PARCEL (R110). -/
def execSendControlParcel (s : State) : Host.Outcome State Fault Refusal :=
  s.apply fun p => p.sendControl.settle

/-- SEND_DATA_PARCEL (R117). -/
def execSendDataParcel (s : State) : Host.Outcome State Fault Refusal :=
  s.apply Part.sendData

/-- TRANSMISSION_END (R28). -/
def execTransmissionEnd (s : State) : Host.Outcome State Fault Refusal :=
  s.apply fun p => p.transmissionEnds.settle

/-- DATA_PICK (R111). -/
def execDataPick (s : State) : Host.Outcome State Fault Refusal :=
  s.apply Part.pick

/-- GATHER_READ_END (R116), for each host read of the gathering. -/
def execGatherReadEnd (k : Nat) (result : ReadEnd) (s : State) : Host.Outcome State Fault Refusal :=
  s.apply fun p => p.gatherReadEnds k result

/-- REFETCH_START (R61). -/
def execRefetchStart (s : State) : Host.Outcome State Fault Refusal :=
  s.apply Part.refetch

/-- REFETCH_END (R62), for each host read of the refetch. -/
def execRefetchEnd (k : Nat) (result : ReadEnd) (s : State) : Host.Outcome State Fault Refusal :=
  s.apply fun p => p.refetchReadEnds k result

end Sys2Proof.Machine
end

