-- ==== Sys2Proof/Machine/Dispatch.lean ====
section
/-! DEFINITION. One arm for each command of the opcode table. -/

namespace Sys2Proof.Machine

def exec (i : Instr) (s : State) : Host.Outcome State Fault Refusal :=
  match i with
  | .powerOnReset => Sys2Proof.Machine.execPowerOnReset s
  | .controlReset value => Sys2Proof.Machine.execControlReset value s
  | .controlEnable value => Sys2Proof.Machine.execControlEnable value s
  | .controlDisable value => Sys2Proof.Machine.execControlDisable value s
  | .eventWrite value => Sys2Proof.Machine.execEventWrite value s
  | .intMaskWrite value => Sys2Proof.Machine.execIntMaskWrite value s
  | .registerWriteOther offset value => Sys2Proof.Machine.execRegisterWriteOther offset value s
  | .ringNotify value => Sys2Proof.Machine.execRingNotify value s
  | .completionReturn value => Sys2Proof.Machine.execCompletionReturn value s
  | .notifyInvalidSelector value => Sys2Proof.Machine.execNotifyInvalidSelector value s
  | .configReadEnd result => Sys2Proof.Machine.execConfigReadEnd result s
  | .signalAcquired => Sys2Proof.Machine.execSignalAcquired s
  | .signalLost => Sys2Proof.Machine.execSignalLost s
  | .dataArrival seq d => Sys2Proof.Machine.execDataArrival seq d s
  | .grantArrival seq g => Sys2Proof.Machine.execGrantArrival seq g s
  | .withdrawArrival seq stream => Sys2Proof.Machine.execWithdrawArrival seq stream s
  | .cutArrival seq stream => Sys2Proof.Machine.execCutArrival seq stream s
  | .voidArrival seq => Sys2Proof.Machine.execVoidArrival seq s
  | .ackArrival expected => Sys2Proof.Machine.execAckArrival expected s
  | .retryArrival expected => Sys2Proof.Machine.execRetryArrival expected s
  | .helloArrival h => Sys2Proof.Machine.execHelloArrival h s
  | .badParcel bytes => Sys2Proof.Machine.execBadParcel bytes s
  | .helloTimerExpiry => Sys2Proof.Machine.execHelloTimerExpiry s
  | .holdoffTimerExpiry => Sys2Proof.Machine.execHoldoffTimerExpiry s
  | .ackDelayExpiry => Sys2Proof.Machine.execAckDelayExpiry s
  | .replayTimerExpiry => Sys2Proof.Machine.execReplayTimerExpiry s
  | .gapTimerExpiry ring => Sys2Proof.Machine.execGapTimerExpiry ring s
  | .interruptHoldoffExpiry => Sys2Proof.Machine.execInterruptHoldoffExpiry s
  | .hostAccessTimeout access => Sys2Proof.Machine.execHostAccessTimeout access s
  | .teardownApply => Sys2Proof.Machine.execTeardownApply s
  | .sendHello => Sys2Proof.Machine.execSendHello s
  | .sendPendingNote => Sys2Proof.Machine.execSendPendingNote s
  | .sendReplay => Sys2Proof.Machine.execSendReplay s
  | .sendControlParcel => Sys2Proof.Machine.execSendControlParcel s
  | .sendDataParcel => Sys2Proof.Machine.execSendDataParcel s
  | .transmissionEnd => Sys2Proof.Machine.execTransmissionEnd s
  | .dataPick => Sys2Proof.Machine.execDataPick s
  | .gatherReadEnd k result => Sys2Proof.Machine.execGatherReadEnd k result s
  | .refetchStart => Sys2Proof.Machine.execRefetchStart s
  | .refetchEnd k result => Sys2Proof.Machine.execRefetchEnd k result s
  | .ringReadEnd ring result => Sys2Proof.Machine.execRingReadEnd ring result s
  | .custodyWriteEnd ring ok => Sys2Proof.Machine.execCustodyWriteEnd ring ok s
  | .heldRingRead ring => Sys2Proof.Machine.execHeldRingRead ring s
  | .sendHeadRecord ring h => Sys2Proof.Machine.execSendHeadRecord ring h s
  | .sendFragmentRecord ring record => Sys2Proof.Machine.execSendFragmentRecord ring record s
  | .strayRecord ring record => Sys2Proof.Machine.execStrayRecord ring record s
  | .landingRecord ring address length => Sys2Proof.Machine.execLandingRecord ring address length s
  | .linkStart tag code window => Sys2Proof.Machine.execLinkStart tag code window s
  | .linkStop tag => Sys2Proof.Machine.execLinkStop tag s
  | .streamOpen tag stream sendRing landingRing allotment returnBatch maxMessage => Sys2Proof.Machine.execStreamOpen tag stream sendRing landingRing allotment returnBatch maxMessage s
  | .streamClose tag stream => Sys2Proof.Machine.execStreamClose tag stream s
  | .streamQuery tag stream address => Sys2Proof.Machine.execStreamQuery tag stream address s
  | .linkQuery tag clear address => Sys2Proof.Machine.execLinkQuery tag clear address s
  | .setTimers tag ackDelay replayLimit replayTimeout helloInterval faultHoldoff gapTimeout => Sys2Proof.Machine.execSetTimers tag ackDelay replayLimit replayTimeout helloInterval faultHoldoff gapTimeout s
  | .unknownCommand tag code => Sys2Proof.Machine.execUnknownCommand tag code s
  | .snapshotWriteEnd ok => Sys2Proof.Machine.execSnapshotWriteEnd ok s
  | .deliveryTake => Sys2Proof.Machine.execDeliveryTake s
  | .landingWriteEnd ring k ok => Sys2Proof.Machine.execLandingWriteEnd ring k ok s
  | .completionWriteBegin => Sys2Proof.Machine.execCompletionWriteBegin s
  | .completionWriteEnd ok => Sys2Proof.Machine.execCompletionWriteEnd ok s
  | .staleAccessEnd access result => Sys2Proof.Machine.execStaleAccessEnd access result s

end Sys2Proof.Machine
end

