-- ==== Sys2Proof/Safety.lean ====
section
/-! DEFINITION. What the manual says of the part at all times, unit by unit: the properties that claims about
every step speak of. -/

namespace Sys2Proof.Machine

/-! ## The control queue (R23) -/

/-- The entries of a control queue that satisfy a test. -/
def countOf (l : List ControlEntry) (test : ControlEntry → Bool) : Nat := (l.filter test).length

/-- The queue never holds two entries of one kind for one stream, nor a GRANT or a CUT together with a WITHDRAW of
the same stream (R23). -/
def ControlOk (l : List ControlEntry) : Prop :=
  ∀ i : Fin 64,
    countOf l (ControlEntry.isGrantOf i) ≤ 1 ∧ countOf l (ControlEntry.isWithdrawOf i) ≤ 1
      ∧ countOf l (ControlEntry.isCutOf i) ≤ 1
      ∧ (1 ≤ countOf l (ControlEntry.isWithdrawOf i) →
          countOf l (ControlEntry.isGrantOf i) = 0 ∧ countOf l (ControlEntry.isCutOf i) = 0)

/-! ## Reservations (R71) -/

/-- The states in which a stream has slots reserved (R71). -/
def StreamState.reserves : StreamState → Bool
  | .localOpen | .opened | .winding => true
  | .closed | .offered | .closing | .disrupted => false

/-- The reserved total is the sum of all allotments and at most 512, and only a stream in LOCAL_OPEN, OPEN or
WINDING has an allotment (R71). -/
def Part.ReservationsOk (p : Part) : Prop :=
  p.ib.reservedTotal = (p.streams.toList.map StreamEntry.allotment).sum ∧ p.ib.reservedTotal ≤ 512
    ∧ ∀ i : Fin 64, (p.stream i).state.reserves = false → (p.stream i).allotment = 0

/-! ## Outbound credits (R81) -/

/-- An entry's outbound credits never exceed its peer allotment, which is at most 128; they are 0 in every state
other than OPEN and OFFERED; and a pending offer's credits are within its allotment (R8, R81, R82). -/
def StreamEntry.CreditsOk (e : StreamEntry) : Prop :=
  e.credits ≤ e.peerAllotment ∧ e.peerAllotment ≤ 128
    ∧ (e.state ≠ .opened → e.state ≠ .offered → e.credits = 0)
    ∧ ∀ o ∈ e.offer, o.credits ≤ o.allotment ∧ o.allotment ≤ 128

/-- The outbound credits of all 64 streams. -/
def Part.CreditsOk (p : Part) : Prop := ∀ i : Fin 64, (p.stream i).CreditsOk

/-! ## The replay list (R31, R54, R59) -/

/-- Entries whose numbers are `n`, `n + 1` and so on, ending before `next` (R54). -/
def Consecutive (n next : Seq) : List ReplayEntry → Prop
  | [] => n = next
  | e :: rest => e.seq = n ∧ Consecutive (n + 1) next rest

/-- The replay list: at most W entries and never more than 256, consecutive numbers up to N, a rewind position on
the list, no timer without an entry, and nothing at all while the link is not UP (R54, R59). The leaving of HELLO
waits only in HELLO (R32, R40), and a teardown is pending only in UP, with the framer busy (R41). -/
def Part.SequencingOk (p : Part) : Prop :=
  p.lk.window ≤ 256 ∧ p.sq.replay.length ≤ p.lk.window
    ∧ Consecutive p.sq.oldest p.sq.next p.sq.replay
    ∧ (∀ n ∈ p.sq.rewind, ∃ e ∈ p.sq.replay, e.seq = n)
    ∧ (p.sq.replay = [] → p.sq.replayTimer = .idle)
    ∧ (p.lk.state ≠ .up → p.sq.replay = [] ∧ p.sq.next = 0)
    ∧ (p.lk.helloExit.isSome → p.lk.state = .hello)
    ∧ (p.lk.teardown.isSome → p.lk.state = .up ∧ p.lk.transmission.isSome)

/-! ## The completion ring (R146, R148, R156) -/

/-- The pending completion list never holds more than 32 entries, the free-slot count never exceeds the ring's
length, and the next serial is a 16-bit number (R146, R148, R156). -/
def Part.CompletionsOk (p : Part) : Prop :=
  p.cq.list.length ≤ 32 ∧ p.cq.free ≤ p.hi.config.completion.length ∧ p.cq.serial < 65536

/-! ## The host side (R183, R184) -/

/-- The fault cause is NONE in every state but FAULT; ENABLE is 0 in DISABLED and 1 in RUNNING, and 1 in LOADING
unless the load has been abandoned (R183, R184, R187). -/
def Part.DeviceOk (p : Part) : Prop :=
  (p.hi.deviceState ≠ .fault → p.hi.faultCause = .none)
    ∧ (p.hi.deviceState = .disabled → p.hi.enable = false)
    ∧ (p.hi.deviceState = .running → p.hi.enable = true)
    ∧ (p.hi.deviceState = .loading → p.hi.loadAbandoned = false → p.hi.enable = true)

/-! ## What a command answers -/

/-- The outcome of a command: the part becomes `q`, and the commands that wait still wait. -/
def State.become (s : State) (q : Part) : Host.Outcome State Fault Refusal := .next { s with toPart := q }

/-- The part once the record read of a ring has brought a record handed over: the position has advanced, the ring
is RETURNING and its custody write is in flight (R89). -/
def Part.afterCopy (p : Part) (ring : RingId) : Part :=
  let c := p.consumer ring
  let config := p.ringConfig ring
  { p.modConsumer ring fun _ => ⟨nextIndex c.position config.length, .returning, false⟩ with
    hi := { p.hi with
      accesses := (p.hi.accesses.filter fun a => decide (a.kind ≠ .ringRead ring)) ++
        [⟨.custodyWrite ring, config.base + BitVec.ofNat 64 (32 * c.position) + 0x1F, 1, [0]⟩] } }

/-! ## Protocol errors and HELLOs (R21, R30) -/

/-- The fields of a HELLO are in range (R30). -/
def HelloInRange (h : HelloParcel) : Prop := 1 ≤ h.epoch ∧ h.code ≤ 3 ∧ 16 ≤ h.window ∧ h.window ≤ 256

/-- LK with one protocol error more in its counter (R44), which stops at its largest value. -/
def Link.countedError (l : Link) : Link :=
  { l with counters := { l.counters with protocolErrors := countUp 4294967295 l.counters.protocolErrors } }

/-- LK with a link-wide protocol error recorded (R30). -/
def Link.withError (l : Link) (cause : ProtocolCause) : Link :=
  { l.countedError with
    protocolFlag := true, protocolCause := cause, protocolCount := countUp 255 l.protocolCount }

/-- A stream's entry with a protocol error recorded (R21). -/
def StreamEntry.withError (e : StreamEntry) (cause : ProtocolCause) : StreamEntry :=
  { e with protocolFlag := true, protocolCause := cause, protocolCount := countUp 255 e.protocolCount }

/-! ## Acceptance (R48, R49) -/

/-- The longest DATA payload that the framer accepts: the payload size in force in UP, where alone it is read (R29,
R31), and the longest that the length field spells elsewhere (log entry 16). -/
def Part.LongestPayload (p : Part) : Nat := if p.lk.state = .up then p.lk.payloadSize else 65535

/-- The part listens to the peer's parcels: the link is UP and no teardown is pending (R29). -/
def Part.Listening (p : Part) : Prop := p.lk.state = .up ∧ p.lk.teardown = none

/-- The part with the sequenced parcel numbered E accepted: E advances, the retry-pending flag clears, and the
acceptance counts toward acknowledgement (R48, R49). -/
def Part.accepted (p : Part) : Part :=
  let count := countUp 255 p.sq.unacknowledged
  { p with sq := { p.sq with
      expected := p.sq.expected + 1
      retryPending := false
      unacknowledged := count
      note := if 8 ≤ count ∧ p.sq.note = .none then .ack else p.sq.note
      ackTimer :=
        if count < 8 ∧ p.sq.ackTimer = .idle then .running p.cm.timers.ackDelay else p.sq.ackTimer } }

/-- The part with a stream's protocol error recorded (R21). -/
def Part.withStreamError (p : Part) (i : Fin 64) (cause : ProtocolCause) : Part :=
  { p with streams := p.streams.set i ((p.stream i).withError cause), lk := p.lk.countedError }

/-- The fields of a GRANT are in range (R6). -/
def GrantInRange (g : GrantParcel) : Prop :=
  1 ≤ g.allotment ∧ g.allotment ≤ 128 ∧ 1 ≤ g.credits ∧ g.credits ≤ g.allotment ∧ 64 ≤ g.maxMessage
    ∧ g.maxMessage ≤ 1048576

/-- A GRANT's allotment is the one on record: the peer allotment, or the pending offer's where there is none (R6). -/
def StreamEntry.Agrees (e : StreamEntry) (g : GrantParcel) : Prop :=
  if e.peerAllotment ≠ 0 then e.peerAllotment = g.allotment else ∀ o ∈ e.offer, o.allotment = g.allotment

/-! ## Transmission (R28, R55, R108) -/

/-- TX may begin a transmission: the part is RUNNING, the framer is free and no teardown is pending (R108). -/
def Part.FramerOpen (p : Part) : Prop :=
  p.hi.deviceState = .running ∧ p.lk.transmission = none ∧ p.lk.teardown = none

/-- TX may begin a new sequenced parcel in UP, with nothing higher in the order ready (R108, R109). -/
def Part.MaySequence (p : Part) : Prop :=
  p.FramerOpen ∧ p.lk.state = .up ∧ p.lk.helloDue = .none ∧ p.sq.note = .none ∧ p.sq.rewind = none
    ∧ p.sq.replay.length < p.lk.window

/-- SQ with its next number given to a parcel of this content (R55): the entry is appended, and the replay timer is
started where the list was empty. -/
def Part.numbered (p : Part) (content : Content) : Sequencing :=
  { p.sq with
    next := p.sq.next + 1
    replay := p.sq.replay ++ [⟨p.sq.next, content⟩]
    replayTimer := if p.sq.replay = [] then .running p.cm.timers.replayTimeout else p.sq.replayTimer }

/-- LK with a first transmission of a sequenced parcel begun and counted (R28, R44). -/
def Link.sending (l : Link) (parcel : Parcel) : Link :=
  { l with
    transmission := some parcel
    counters := { l.counters with parcelsSent := countUp 4294967295 l.counters.parcelsSent } }

/-- A context is eligible (R111): READY or SENDING, the first of its stream's send line that is not SENT, and its
stream OPEN with a credit. -/
def Part.Eligible (p : Part) (c : Fin 32) : Prop :=
  ((p.context c).state = .ready ∨ (p.context c).state = .sending)
    ∧ ∃ i : Fin 64, (p.context c).stream = i.val ∧ (p.stream i).state = .opened ∧ 1 ≤ (p.stream i).credits
        ∧ (p.stream i).sendLine.find? (fun x => decide ((p.context x).state ≠ .sent)) = some c

/-- The bytes of host memory `m` from an address on. -/
def hostBytes (m : Addr → Byte) (a : Addr) (n : Nat) : List Byte :=
  (List.range n).map fun k => m (a + BitVec.ofNat 64 k)

/-! ## Records copied from the rings (R89, R94, R165) -/

/-- A record read of a RUNNING part is in flight at a ring. -/
def Part.ReadInFlight (p : Part) (ring : RingId) : Prop :=
  p.hi.deviceState = .running ∧ ∃ a, p.access? (.ringRead ring) = some a

/-- The part once CM has taken a command's copy, which is in progress in a phase (R89, R165). -/
def Part.commandTaken (p : Part) (tag : BitVec 32) (command : Command) (phase : Phase) : Part :=
  { p.afterCopy .command with cm := { p.cm with command := some ⟨command, tag, phase⟩ } }

/-- SF with context `c` taken for a new record of send ring `r` (R94). -/
def Part.contextTaken (p : Part) (r : Fin 4) (c : Fin 32) (x : Context) : SendFetcher :=
  { p.sf with
    contexts := p.sf.contexts.set c x
    fetchOrder := p.sf.fetchOrder.set r (p.sf.fetchOrder.get r ++ [c]) }

/-- SF with context `c` in COMPLETING with an outcome (R96, R97, R98, R105). -/
def SendFetcher.completed (sf : SendFetcher) (c : Fin 32) (outcome : Status) : SendFetcher :=
  { sf with
    contexts := sf.contexts.set c { sf.contexts.get c with state := .completing, outcome := some outcome }
    line := sf.line ++ [c] }

/-! ## Completions (R147, R155) -/

/-- The part once CQ has begun to write a record (R147): the next serial, a slot fewer, the position advanced, the
writer WRITING, and one host write of the record's 32 bytes. -/
def Part.writeBegun (p : Part) (record : Record) : Part :=
  let ring := p.hi.config.completion
  { p with
    cq := { p.cq with
      serial := (p.cq.serial + 1) % 65536
      free := p.cq.free - 1
      position := if p.cq.position + 1 < ring.length then p.cq.position + 1 else 0
      writer := .writing p.cq.position p.cq.serial record }
    hi := { p.hi with
      accesses := p.hi.accesses ++
        [⟨.completionWrite, ring.base + BitVec.ofNat 64 (32 * p.cq.position), 32, record.bytes p.cq.serial⟩] } }

/-- CQ may begin a write (R147): RUNNING, the writer IDLE and a slot free. -/
def Part.MayWrite (p : Part) : Prop := p.hi.deviceState = .running ∧ p.cq.writer = .idle ∧ 0 < p.cq.free

/-! ## Delivery (R123, R124, R132, R135, R144) -/

/-- Stream `i` is busy (R124): its landing ring has a landing in flight of the stream, or the stream holds the ring's
claim and the ring has a waiting message completion. -/
def Part.Busy (p : Part) (i : Fin 64) : Prop :=
  let ring := p.landRing (p.stream i).landingRing
  (∃ l, ring.landing = some l ∧ l.stream = i) ∨ (ring.holder = some i ∧ ring.waiting ≠ none)

/-- A buffer is available (R132): the current one has room left, or the cache holds a USABLE entry. -/
def LandingRing.BufferAvailable (ring : LandingRing) : Prop :=
  (∃ b, ring.current = some b ∧ b.used < b.length) ∨ ∃ slot a n, CacheEntry.usable slot a n ∈ ring.cache

/-- A cache entry as a fresh buffer, if it is USABLE (R127). -/
def CacheEntry.fresh? : CacheEntry → Option Buffer
  | .usable slot address length => some ⟨slot, address, length, 0⟩
  | .rejected _ => none

/-- Bytes go into buffers in order, as many into each as its remaining room holds (R134): the buffers used, each with
the bytes it takes. -/
def fillBuffers : List Buffer → List Byte → List (Buffer × List Byte)
  | [], _ => []
  | b :: rest, bytes =>
    if bytes = [] then []
    else (b, bytes.take (b.length - b.used)) :: fillBuffers rest (bytes.drop (b.length - b.used))

/-- The ring is free (R123). -/
def LandingRing.Free (ring : LandingRing) : Prop := ring.holder = none ∧ ring.landing = none ∧ ring.waiting = none

/-- DL would write this parcel at the head of stream `i`'s queue, once a buffer is available (R128, R132). -/
def Part.WouldWrite (p : Part) (i : Fin 64) (d : StoredData) : Prop :=
  let e := p.stream i
  (e.reassembly.mode = .assembling ∧ d.index ≠ 0 ∧ d.index = e.reassembly.expected
      ∧ e.reassembly.bytesSoFar < e.maxInbound)
    ∨ (e.reassembly.mode ≠ .assembling ∧ d.index = 0 ∧ (p.landRing e.landingRing).holder = some i)

/-- The head of stream `i`'s inbound queue is deliverable (R132). -/
def Part.Deliverable (p : Part) (i : Fin 64) : Prop :=
  let e := p.stream i
  ¬p.Busy i
    ∧ ∃ head rest, p.queue i = head :: rest
        ∧ ∀ d, head = .data d →
            (p.WouldWrite i d ∧ (p.landRing e.landingRing).BufferAvailable)
              ∨ (e.reassembly.mode ≠ .assembling ∧ d.index ≠ 0)
              ∨ (e.reassembly.mode = .assembling
                  ∧ (d.index = 0 ∨ d.index ≠ e.reassembly.expected ∨ e.maxInbound ≤ e.reassembly.bytesSoFar))

/-- The part once the message that stream `i` assembles at ring `r` has ended with a status (R135, R144): the current
buffer is absent, and the completion waits at the ring and stands on the line. -/
def Part.messageEnded (p : Part) (i : Fin 64) (status : Status) (mode : Mode) : Part :=
  let e := p.stream i
  let r := e.landingRing
  let m : MessageCompletion :=
    ⟨i, e.reassembly.firstSlot, e.reassembly.lastSlot, e.reassembly.bytesSoFar, e.reassembly.mark, status⟩
  { p with
    dl := { p.dl with
      rings := p.dl.rings.set r { p.landRing r with current := none, waiting := some m }
      line := p.dl.line ++ [.message r m] }
    streams := p.streams.set i { e with reassembly := { e.reassembly with mode := mode } } }

/-- The part with stream `i`'s entry replaced. -/
def Part.withStream (p : Part) (i : Fin 64) (e : StreamEntry) : Part := { p with streams := p.streams.set i e }

/-- The part with landing ring `r`'s state in DL replaced. -/
def Part.withRing (p : Part) (r : Fin 8) (ring : LandingRing) : Part :=
  { p with dl := { p.dl with rings := p.dl.rings.set r ring } }

/-- The part with stream `i`'s inbound queue replaced. -/
def Part.withQueue (p : Part) (i : Fin 64) (q : List InboundEntry) : Part :=
  { p with ib := { p.ib with queues := p.ib.queues.set i q } }

/-! ## The interrupt condition (R162) -/

/-- An EVENT bit is set whose mask bit is 0. -/
def Part.InterruptHolds (p : Part) : Prop :=
  ∃ i, i < 3 ∧ p.hi.event.getLsbD i = true ∧ p.hi.intMask.getLsbD i = false

/-! ## FAULT (R189, R190) -/

/-- While the part is in FAULT the link is OFFLINE with nothing pending, the replay list is empty and no timer
runs. -/
def Part.FaultOk (p : Part) : Prop :=
  p.hi.deviceState = .fault →
    p.lk.state = .offline ∧ p.lk.helloTimer = .idle ∧ p.lk.holdoffTimer = .idle ∧ p.lk.teardown = none
      ∧ p.lk.helloExit = none ∧ p.sq.replay = [] ∧ p.sq.replayTimer = .idle ∧ p.sq.ackTimer = .idle
      ∧ p.cq.holdoffTimer = .idle ∧ ∀ r : Fin 8, (p.landRing r).gapTimer = .idle

end Sys2Proof.Machine
end

