-- ==== Sys2Proof/WellFormed.lean ====
section
/-! DEFINITION. Well-formed commands: each operand within the width its field has in Record and Parcel Formats, and
within the row it is written under. No other command can reach the part. -/

namespace Sys2Proof

open Machine

/-! ## Fields -/

/-- Fits one byte. -/
def fitsByte (n : Nat) : Bool := n < 256

/-- Fits a two-byte field. -/
def fitsHalf (n : Nat) : Bool := n < 65536

/-- Fits a four-byte field. -/
def fitsWord (n : Nat) : Bool := n < 4294967296

/-- A read's data has the length that was read. -/
def ReadEnd.hasLength (n : Nat) : ReadEnd → Bool
  | .data bytes => bytes.length = n
  | .failed => true

/-! ## Records and parcels -/

/-- A HEAD record's fields. -/
def HeadRecord.wellFormed (h : HeadRecord) : Bool :=
  fitsByte h.stream && fitsByte h.fragmentCount && fitsWord h.totalLength && fitsWord h.length

/-- A send record's fields; a kind code of 1 or 2 is a HEAD or a FRAGMENT (R195). -/
def SendRecord.wellFormed : SendRecord → Bool
  | .head h => h.wellFormed
  | .fragment _ length => fitsWord length
  | .other kind => fitsByte kind && kind ≠ 1 && kind ≠ 2

/-- A send record of any kind but HEAD (R96). -/
def SendRecord.notHead : SendRecord → Bool
  | .head _ => false
  | _ => true

/-- A DATA parcel's fields (R26, R196). -/
def DataParcel.wellFormed (d : DataParcel) : Bool :=
  fitsByte d.stream && d.index < 8192 && fitsHalf d.payload.length

/-- A GRANT parcel's fields. -/
def GrantParcel.wellFormed (g : GrantParcel) : Bool :=
  fitsByte g.stream && fitsByte g.allotment && fitsByte g.credits && fitsWord g.maxMessage

/-- A HELLO's fields. -/
def HelloParcel.wellFormed (h : HelloParcel) : Bool :=
  fitsByte h.epoch && fitsByte h.seen && fitsByte h.code && fitsHalf h.window

/-- A parcel's fields. -/
def Parcel.wellFormed : Parcel → Bool
  | .data _ d => d.wellFormed
  | .grant _ g => g.wellFormed
  | .withdraw _ stream | .cut _ stream => fitsByte stream
  | .void _ | .ack _ | .retry _ => true
  | .hello h => h.wellFormed

/-- A command record's code and parameters; a code of 1 to 7 names a command (R195). -/
def Command.wellFormed : Command → Bool
  | .linkStart code window => fitsByte code && fitsHalf window
  | .linkStop => true
  | .streamOpen stream sendRing landingRing allotment returnBatch maxMessage =>
    fitsByte stream && fitsByte sendRing && fitsByte landingRing && fitsByte allotment && fitsByte returnBatch
      && fitsWord maxMessage
  | .streamClose stream | .streamQuery stream _ => fitsByte stream
  | .linkQuery .. => true
  | .setTimers ackDelay replayLimit replayTimeout helloInterval faultHoldoff gapTimeout =>
    fitsByte ackDelay && fitsByte replayLimit && fitsHalf replayTimeout && fitsHalf helloInterval
      && fitsHalf faultHoldoff && fitsHalf gapTimeout
  | .unknown code => fitsByte code && (code < 1 || 7 < code)

/-! ## Register writes -/

/-- The value sets CONTROL.RESET. -/
def setsReset (value : BitVec 32) : Bool := value.getLsbD 1

/-- The value sets CONTROL.ENABLE. -/
def setsEnable (value : BitVec 32) : Bool := value.getLsbD 0

/-- An offset of a 32-bit register of the window that no row of its own writes (R181). -/
def otherOffset (offset : BitVec 12) : Bool :=
  offset.toNat % 4 = 0 && !([0x04, 0x0C, 0x10, 0x1C].contains offset.toNat)

/-- The selector names a consumer ring (R88). -/
def selectsRing (value : BitVec 32) : Bool :=
  match notifySelector value with
  | .ring _ => true
  | _ => false

/-! ## Commands -/

/-- A command's operands are such as its row can have. -/
def Instr.wellFormed : Instr → Bool
  | .powerOnReset => true
  | .controlReset value => setsReset value
  | .controlEnable value => !setsReset value && setsEnable value
  | .controlDisable value => !setsReset value && !setsEnable value
  | .eventWrite _ | .intMaskWrite _ => true
  | .registerWriteOther offset _ => otherOffset offset
  | .ringNotify value => selectsRing value
  | .completionReturn value => notifySelector value = .completion
  | .notifyInvalidSelector value => notifySelector value = .nothing
  | .configReadEnd result => result.hasLength 256
  | .signalAcquired | .signalLost => true
  | .dataArrival _ d => d.wellFormed
  | .grantArrival _ g => g.wellFormed
  | .withdrawArrival _ stream | .cutArrival _ stream => fitsByte stream
  | .voidArrival _ | .ackArrival _ | .retryArrival _ => true
  | .helloArrival h => h.wellFormed
  | .badParcel _ => true
  | .helloTimerExpiry | .holdoffTimerExpiry | .ackDelayExpiry | .replayTimerExpiry | .gapTimerExpiry _
  | .interruptHoldoffExpiry | .hostAccessTimeout _ => true
  | .teardownApply | .sendHello | .sendPendingNote | .sendReplay | .sendControlParcel | .sendDataParcel
  | .transmissionEnd | .dataPick | .gatherReadEnd .. | .refetchStart | .refetchEnd .. => true
  | .ringReadEnd _ result => result.hasLength 32
  | .custodyWriteEnd .. | .heldRingRead _ => true
  | .sendHeadRecord _ h => h.wellFormed
  | .sendFragmentRecord _ record => record.wellFormed
  | .strayRecord _ record => record.wellFormed && record.notHead
  | .landingRecord _ _ length => fitsWord length
  | .linkStart _ code window => (Command.linkStart code window).wellFormed
  | .linkStop _ => true
  | .streamOpen _ stream sendRing landingRing allotment returnBatch maxMessage =>
    (Command.streamOpen stream sendRing landingRing allotment returnBatch maxMessage).wellFormed
  | .streamClose _ stream | .streamQuery _ stream _ => fitsByte stream
  | .linkQuery .. => true
  | .setTimers _ ackDelay replayLimit replayTimeout helloInterval faultHoldoff gapTimeout =>
    (Command.setTimers ackDelay replayLimit replayTimeout helloInterval faultHoldoff gapTimeout).wellFormed
  | .unknownCommand _ code => (Command.unknown code).wellFormed
  | .snapshotWriteEnd _ | .deliveryTake | .landingWriteEnd .. | .completionWriteBegin | .completionWriteEnd _
  | .staleAccessEnd .. => true

end Sys2Proof
end

