-- ==== Sys2Proof/Certificates/Slice0/Obligations.lean ====
section
/-! DEFINITION. The statements for the provers: what each command does to the part, what the units' shared operations
do, and what every step keeps. -/

open Sys2Proof Sys2Proof.Machine

/-! ## The queue, resets and the register window -/

/-- A step takes the command at the front of the queue and runs it with the queue's rest; on an empty queue the part
idles (the model's queue, log entry 1). Every command has an effect on the part in every state and leaves the waiting
commands as they are: none ends in a fault or a refusal of the model. -/
def Obligations.StepRunsTheFrontCommand : Prop :=
  ((∀ (c : Instr) (rest : List Instr) (s : State),
      s.pending = c :: rest → step s = exec c { s with pending := rest })
    ∧ ∀ s : State, s.pending = [] → step s = .next s)
  ∧ (∀ (c : Instr) (s : State), ∃ q : Part, exec c s = s.become q)

/-- POWER_ON_RESET (R191, with R1, R31, R47, R54, R70, R87, R93, R107, R123, R146, R164, R177): every unit takes its
power-on value, and so every field of the part but the model's counter of free values, which is kept with the waiting
commands (log entry 25). The lists of accesses that are empty, the count of interrupt messages and the marks of the
contexts are the model's own (log entries 17, 19, 25). -/
def Obligations.PowerOnResetValues : Prop :=
  (∀ s : State, exec .powerOnReset s = s.become { State.reset.toPart with choice := s.choice })
  ∧ let q : Part := State.reset.toPart
    let ring : RingConfig := { base := 0, length := 0 }
    q.hi =
        { deviceState := .disabled, faultCause := .none, enable := false, event := 0, intMask := 7, configLo := 0
          configHi := 0, loadAddress := 0, loadAbandoned := false
          config :=
            { command := ring, send := .fill 4 ring, landing := .fill 8 ring, completion := ring, weight1 := 0
              weight2 := 0, weight3 := 0, burstLimit := 0, threshold := 0, holdoff := 0, nodeLabel := 0 }
          accesses := [], stale := [], timedOut := [], interrupts := 0 }
      ∧ q.lk =
        { state := .offline, signalPresent := false, localEpoch := 0, peerEpoch := 0, offeredCode := 0
          offeredWindow := 0, peerCode := 0, peerWindow := 0, peerLabel := 0, payloadSize := 0, window := 0
          helloDue := .none, helloTimer := .idle, holdoffTimer := .idle, teardown := none, helloExit := none
          eventFlag := false, latestCause := .none, transitions := 0, protocolFlag := false, protocolCause := .none
          protocolCount := 0, counters := ⟨0, 0, 0, 0, 0, 0, 0, 0, 0⟩, transmission := none }
      ∧ q.sq =
        { expected := 0, unacknowledged := 0, ackTimer := .idle, retryPending := false, note := .none, next := 0
          replay := [], rewind := none, replayTimer := .idle, replayCount := 0, slot := .empty }
      ∧ (∀ i : Fin 64,
          q.stream i =
            { state := .closed, sendRing := 0, landingRing := 0, maxInbound := 0, allotment := 0, returnBatch := 0
              occupancy := 0, pendingReturns := 0, credits := 0, peerAllotment := 0, peerMaxMessage := 0, offer := none
              withdrawSequenced := false, peerWithdrawSeen := false, markerProcessed := false, closeWaiting := false
              reassembly := { mode := .idle, expected := 0, bytesSoFar := 0, firstSlot := 0, lastSlot := 0, mark := 0 }
              sendLine := [], offeredFlag := false, endedFlag := false, protocolFlag := false, protocolCause := .none
              protocolCount := 0 }
            ∧ q.queue i = [])
      ∧ q.control = [] ∧ q.ib.freeCount = 512 ∧ q.ib.reservedTotal = 0
      ∧ q.tx = { staging := .empty, burst := 0, turnRing := 1, turnCount := 0 }
      ∧ (∀ c : Fin 32,
          q.context c =
            { state := .free, headIndex := 0, tag := 0, stream := 0, mark := 0, fragmentCount := 0, fragments := []
              totalLength := 0, parcelCount := 0, nextIndex := 0, nextOffset := 0, acknowledged := 0, outcome := none
              laterSequenced := false })
      ∧ (∀ r : Fin 4, q.sf.fetchOrder.get r = []) ∧ q.sf.line = []
      ∧ (∀ r : Fin 8,
          q.landRing r =
            { cache := [], current := none, holder := none, claimQueue := [], landing := none, waiting := none
              gapTimer := .idle, episode := false, emptyFlag := false })
      ∧ q.dl.pointer = 63 ∧ q.dl.line = []
      ∧ q.cq =
        { position := 0, free := 0, serial := 0, writer := .idle, list := [], turn := .dl, unannounced := 0
          holdoffTimer := .idle }
      ∧ q.cm =
        { command := none
          timers :=
            { ackDelay := 8, replayTimeout := 500, replayLimit := 8, helloInterval := 1000, faultHoldoff := 10
              gapTimeout := 100 } }
      ∧ ∀ ring : RingId, q.consumer ring = { position := 0, state := .idle, renotify := false }

/-- A function reset (R192): as after a power-on reset, but that CONFIG_LO, CONFIG_HI and INT_MASK are kept and the
accesses in flight are kept apart (R193). The count of interrupt messages, the counter of free values, the two lists of
accesses whose answers reach no unit, and the framer free at once are the model's own (log entries 7, 19, 23 and 26). -/
def Obligations.FunctionResetEffect : Prop :=
  ∀ s : State,
    let after : Part :=
      { State.reset.toPart with
        hi := { State.reset.hi with
          configLo := s.hi.configLo, configHi := s.hi.configHi, intMask := s.hi.intMask
          stale := s.hi.stale ++ s.hi.accesses, timedOut := s.hi.timedOut, interrupts := s.hi.interrupts }
        choice := s.choice }
    (∀ value : BitVec 32, value.getLsbD 1 = true → exec (.controlReset value) s = s.become after)
    ∧ ∀ value : BitVec 32, value.getLsbD 1 = false → value.getLsbD 0 = false → s.hi.enable = true →
        s.hi.deviceState = .running → exec (.controlDisable value) s = s.become after

/-- A CONTROL write with RESET 0 (R183, R185, R187): taking ENABLE from 0 to 1 begins a load, faults the part on a
misaligned address, or changes the field alone; taking it from 1 to 0 abandons a load or changes the field alone;
leaving it changes nothing. The write that resets a RUNNING part is FunctionResetEffect's. -/
def Obligations.ControlWriteEffect : Prop :=
  (∀ (s : State) (value : BitVec 32), value.getLsbD 1 = false → value.getLsbD 0 = true → s.hi.enable = false →
      (s.hi.deviceState = .disabled → (s.hi.configHi ++ s.hi.configLo).toNat % 256 = 0 →
        exec (.controlEnable value) s = s.become
          { s.toPart with hi := { s.hi with
              enable := true, deviceState := .loading, loadAddress := s.hi.configHi ++ s.hi.configLo
              loadAbandoned := false
              accesses := s.hi.accesses ++ [⟨.configRead, s.hi.configHi ++ s.hi.configLo, 256, []⟩] } })
      ∧ (s.hi.deviceState = .disabled → (s.hi.configHi ++ s.hi.configLo).toNat % 256 ≠ 0 →
          ∃ q : Part, exec (.controlEnable value) s = s.become q ∧ q.hi.enable = true ∧ q.hi.deviceState = .fault
            ∧ q.hi.faultCause = .configInvalid ∧ q.hi.event = s.hi.event ||| 4 ∧ q.hi.accesses = s.hi.accesses)
      ∧ (s.hi.deviceState = .loading ∨ s.hi.deviceState = .fault →
          exec (.controlEnable value) s = s.become { s.toPart with hi := { s.hi with enable := true } }))
  ∧ (∀ (s : State) (value : BitVec 32), value.getLsbD 1 = false →
      (value.getLsbD 0 = false → s.hi.enable = true → s.hi.deviceState = .loading →
        exec (.controlDisable value) s = s.become
          { s.toPart with hi := { s.hi with enable := false, loadAbandoned := true } })
      ∧ (value.getLsbD 0 = false → s.hi.enable = true → s.hi.deviceState = .fault →
          exec (.controlDisable value) s = s.become { s.toPart with hi := { s.hi with enable := false } })
      ∧ (value.getLsbD 0 = s.hi.enable →
          exec (.controlEnable value) s = s.become s.toPart ∧ exec (.controlDisable value) s = s.become s.toPart))

/-- EVENT and INT_MASK writes (R161, R162): which bits change, and when an interrupt message is sent. The count of
messages is the model's (log entry 19). -/
def Obligations.EventAndMaskWrites : Prop :=
  ∀ (s : State) (value : BitVec 32),
    exec (.eventWrite value) s = s.become
      { s.toPart with hi := { s.hi with event := s.hi.event &&& ~~~(value.setWidth 3) } }
    ∧ ∃ n : Nat,
        exec (.intMaskWrite value) s = s.become
          { s.toPart with hi := { s.hi with intMask := value.setWidth 3, interrupts := s.hi.interrupts + n } }
        ∧ (s.InterruptHolds ∨ (∀ i, i < 3 → s.hi.event.getLsbD i = true → value.getLsbD i = true) → n = 0)
        ∧ (¬s.InterruptHolds → (∃ i, i < 3 ∧ s.hi.event.getLsbD i = true ∧ value.getLsbD i = false) → n = 1)

/-- Writes at the offsets that have no row of their own, and what the registers of the window return (R181, R182,
R184): CONFIG_LO and CONFIG_HI take the value in every device state and nothing else changes; IDENT, STATUS and the
rest of the window ignore the write. That an access is of one aligned word, so that the offsets within a register name
no register, and that a read is a function of the state are the model's choices (log entries 21 and 30). -/
def Obligations.RegisterWindow : Prop :=
  (∀ (s : State) (value : BitVec 32),
      exec (.registerWriteOther 0x14 value) s = s.become { s.toPart with hi := { s.hi with configLo := value } }
      ∧ exec (.registerWriteOther 0x18 value) s = s.become { s.toPart with hi := { s.hi with configHi := value } }
      ∧ ∀ offset : BitVec 12,
          offset ∉ [0x04#12, 0x0C#12, 0x10#12, 0x14#12, 0x18#12, 0x1C#12] →
            exec (.registerWriteOther offset value) s = s.become s.toPart)
  ∧ (∀ (p : Part),
      readRegister p 0x00 = 0x5B106401#32
      ∧ readRegister p 0x04 = (if p.hi.enable then 1#32 else 0#32)
      ∧ (readRegister p 0x08).toNat % 256 = p.hi.deviceState.code
      ∧ (readRegister p 0x08).toNat / 256 = p.hi.faultCause.code
      ∧ readRegister p 0x0C = p.hi.event.setWidth 32 ∧ readRegister p 0x10 = p.hi.intMask.setWidth 32
      ∧ readRegister p 0x14 = p.hi.configLo ∧ readRegister p 0x18 = p.hi.configHi
      ∧ ∀ offset : BitVec 12, 0x1C ≤ offset.toNat → readRegister p offset = 0)

/-- RING_NOTIFY (R88): a notification of a consumer ring acts by the ring's state while the part is RUNNING, and
leaves the part unchanged in every other device state. -/
def Obligations.RingNotifyEffect : Prop :=
  ∀ (s : State) (value : BitVec 32) (ring : RingId), notifySelector value = .ring ring →
    (s.hi.deviceState ≠ .running → exec (.ringNotify value) s = s.become s.toPart)
    ∧ (s.hi.deviceState = .running →
        ((s.consumer ring).state = .idle → s.hasRoom ring = true →
          exec (.ringNotify value) s = s.become
            { s.modConsumer ring fun c => { c with state := .reading } with
              hi := { s.hi with accesses := s.hi.accesses ++
                [⟨.ringRead ring, (s.ringConfig ring).base + BitVec.ofNat 64 (32 * (s.consumer ring).position), 32,
                  []⟩] } })
        ∧ ((s.consumer ring).state = .idle → s.hasRoom ring = false →
            exec (.ringNotify value) s = s.become (s.modConsumer ring fun c => { c with state := .held }))
        ∧ ((s.consumer ring).state = .reading →
            exec (.ringNotify value) s = s.become (s.modConsumer ring fun c => { c with renotify := true }))
        ∧ ((s.consumer ring).state = .returning ∨ (s.consumer ring).state = .held →
            exec (.ringNotify value) s = s.become s.toPart))

/-- COMPLETION_RETURN (R149). The beginning of the next write is COMPLETION_WRITE_BEGIN's (log entry 32). -/
def Obligations.CompletionReturnEffect : Prop :=
  ∀ (s : State) (value : BitVec 32), notifySelector value = .completion →
    (s.hi.deviceState ≠ .running → exec (.completionReturn value) s = s.become s.toPart)
    ∧ (s.hi.deviceState = .running → 1 ≤ notifyCount value →
        s.cq.free + notifyCount value ≤ s.hi.config.completion.length →
        exec (.completionReturn value) s = s.become
          { s.toPart with cq := { s.cq with free := s.cq.free + notifyCount value } })
    ∧ (s.hi.deviceState = .running →
        notifyCount value = 0 ∨ s.hi.config.completion.length < s.cq.free + notifyCount value →
        ∃ n ≤ 1, exec (.completionReturn value) s = s.become
          { s.toPart with hi := { s.hi with event := s.hi.event ||| 2, interrupts := s.hi.interrupts + n } })

/-- NOTIFY_INVALID_SELECTOR, and no ring notification reads the count (R150). -/
def Obligations.NotifySelectors : Prop :=
  (∀ (s : State) (value : BitVec 32), notifySelector value = .nothing →
    (s.hi.deviceState ≠ .running → exec (.notifyInvalidSelector value) s = s.become s.toPart)
    ∧ (s.hi.deviceState = .running → ∃ n ≤ 1, exec (.notifyInvalidSelector value) s = s.become
        { s.toPart with hi := { s.hi with event := s.hi.event ||| 2, interrupts := s.hi.interrupts + n } }))
  ∧ ∀ (s : State) (v w : BitVec 32) (ring : RingId), notifySelector v = .ring ring → v.toNat % 256 = w.toNat % 256 →
      exec (.ringNotify v) s = exec (.ringNotify w) s

/-- CONFIG_READ_END while the part is LOADING (R185 to R187): an abandoned load discards its read; a failed read and
a block that fails a check fault the part; a block that passes is kept, and the part is RUNNING. That entering RUNNING
leaves every other field of the units as it stands is the model's reading (log entry 24). -/
def Obligations.ConfigReadEndEffect : Prop :=
  ∀ (s : State) (a : Access) (result : ReadEnd),
    s.access? .configRead = some a → s.hi.deviceState = .loading → result.hasLength a.length = true →
    let rest := s.hi.accesses.filter fun x => decide (x.kind ≠ .configRead)
    let address := s.hi.configHi ++ s.hi.configLo
    (s.hi.loadAbandoned = true → s.hi.enable = false →
      exec (.configReadEnd result) s = s.become
        { s.toPart with hi := { s.hi with accesses := rest, deviceState := .disabled } })
    ∧ (s.hi.loadAbandoned = true → s.hi.enable = true → address.toNat % 256 = 0 →
        exec (.configReadEnd result) s = s.become
          { s.toPart with hi := { s.hi with
              accesses := rest ++ [⟨.configRead, address, 256, []⟩], loadAddress := address
              loadAbandoned := false } })
    ∧ (s.hi.loadAbandoned = false → ∀ block : List Byte, result = .data block → (readConfig block).valid = true →
        exec (.configReadEnd result) s = s.become
          { s.toPart with
            hi := { s.hi with accesses := rest, deviceState := .running, config := readConfig block }
            cq := { s.cq with free := (readConfig block).completion.length } })
    ∧ (∃ q : Part, exec (.configReadEnd result) s = s.become q
        ∧ (s.hi.loadAbandoned = false → result = .failed →
            q.hi.deviceState = .fault ∧ q.hi.faultCause = .configRead)
        ∧ (s.hi.loadAbandoned = false → ∀ block : List Byte, result = .data block →
            (readConfig block).valid = false →
            q.hi.deviceState = .fault ∧ q.hi.faultCause = .configInvalid ∧ q.hi.config = s.hi.config)
        ∧ (s.hi.loadAbandoned = true → s.hi.enable = true → address.toNat % 256 ≠ 0 →
            q.hi.deviceState = .fault ∧ q.hi.faultCause = .configInvalid ∧ q.hi.loadAddress = address))

/-- HOST_ACCESS_TIMEOUT (R188): the access ends in failure at that moment, just as a failure the host port reports, and
its late answer is expected; one no longer in flight is not ended again. The timeout of an access issued before a
function reset reaches no unit (R193). STALE_ACCESS_END: the end of such an access (R193), and the late answer to one
that has timed out (R188), take its own entry away and change nothing else, whatever is in flight. The two lists are the
model's record of these accesses, and the operand that names the access is the model's too (log entries 23 and 31). -/
def Obligations.TimeoutsAndStaleAccesses : Prop :=
  (∀ (s : State) (kind : AccessKind) (a : Access), s.access? kind = some a →
      let late : State := { s with hi := { s.hi with timedOut := s.hi.timedOut ++ [a] } }
      let times (c : Instr) : Prop := exec (.hostAccessTimeout (.live kind)) s = exec c late
      (kind = .configRead → times (.configReadEnd .failed))
      ∧ (∀ ring, kind = .ringRead ring → times (.ringReadEnd ring .failed))
      ∧ (∀ ring, kind = .custodyWrite ring → times (.custodyWriteEnd ring false))
      ∧ (∀ k, kind = .gatherRead k → times (.gatherReadEnd k .failed))
      ∧ (∀ k, kind = .refetchRead k → times (.refetchEnd k .failed))
      ∧ (∀ r k, kind = .landingWrite r k → times (.landingWriteEnd r k false))
      ∧ (kind = .snapshotWrite → times (.snapshotWriteEnd false))
      ∧ (kind = .completionWrite → times (.completionWriteEnd false)))
  ∧ (∀ (s : State) (kind : AccessKind), s.access? kind = none →
      exec (.hostAccessTimeout (.live kind)) s = s.become s.toPart)
  ∧ (∀ (s : State) (k : Nat) (a : Access),
      (s.hi.stale[k]? = some a → exec (.hostAccessTimeout (.stale k)) s = s.become
        { s.toPart with hi := { s.hi with
            stale := s.hi.stale.take k ++ s.hi.stale.drop (k + 1), timedOut := s.hi.timedOut ++ [a] } })
      ∧ (s.hi.stale[k]? = none → exec (.hostAccessTimeout (.stale k)) s = s.become s.toPart))
  ∧ (∀ (s : State) (k : Nat) (result : ReadEnd),
      exec (.staleAccessEnd (.stale k) result) s = s.become
        { s.toPart with hi := { s.hi with stale := s.hi.stale.take k ++ s.hi.stale.drop (k + 1) } }
      ∧ exec (.staleAccessEnd (.timedOut k) result) s = s.become
        { s.toPart with hi := { s.hi with timedOut := s.hi.timedOut.take k ++ s.hi.timedOut.drop (k + 1) } })

/-- A failed record read, custody write or completion record write takes a RUNNING part into FAULT (R189, R190, R45,
R69, R163): the cause is recorded and EVENT.FAULT set, the link is OFFLINE without a teardown, SQ's list is empty,
the timers stop, and everything else stays as it stands. That the link is OFFLINE at once while a transmission runs, that
a READY replay slot is kept and that the late answer of an access that timed out is expected are the model's (log
entries 27, 22 and 23). -/
def Obligations.DeviceFaultEntry : Prop :=
  ∀ (s : State), s.hi.deviceState = .running →
    let entered (kind : AccessKind) (cause : FaultCause) (late : List Access) (n : Nat) : Part :=
      { s.toPart with
        hi := { s.hi with
          accesses := s.hi.accesses.filter fun x => decide (x.kind ≠ kind)
          deviceState := .fault, faultCause := cause, event := s.hi.event ||| 4
          timedOut := s.hi.timedOut ++ late, interrupts := s.hi.interrupts + n }
        lk := { s.lk with
          state := .offline, helloDue := .none, helloTimer := .idle, holdoffTimer := .idle, teardown := none
          helloExit := none }
        sq := { s.sq with
          replayTimer := .idle, ackTimer := .idle, replay := [], next := 0, rewind := none, replayCount := 0
          slot := match s.sq.slot with
            | .reading seq _ reads => .reading seq false reads
            | other => other }
        cq := { s.cq with holdoffTimer := .idle }
        dl := { s.dl with rings := s.dl.rings.map fun r => { r with gapTimer := .idle } } }
    (∀ ring a, s.access? (.ringRead ring) = some a → ∃ n ≤ 1,
      exec (.ringReadEnd ring .failed) s = s.become (entered (.ringRead ring) .ringRead [] n)
        ∧ exec (.hostAccessTimeout (.live (.ringRead ring))) s =
          s.become (entered (.ringRead ring) .ringRead [a] n))
    ∧ (∀ ring a, s.access? (.custodyWrite ring) = some a → ∃ n ≤ 1,
        exec (.custodyWriteEnd ring false) s = s.become (entered (.custodyWrite ring) .custodyWrite [] n)
          ∧ exec (.hostAccessTimeout (.live (.custodyWrite ring))) s =
            s.become (entered (.custodyWrite ring) .custodyWrite [a] n))
    ∧ (∀ a, s.access? .completionWrite = some a → ∃ n ≤ 1,
        exec (.completionWriteEnd false) s = s.become (entered .completionWrite .completionWrite [] n)
          ∧ exec (.hostAccessTimeout (.live .completionWrite)) s =
            s.become (entered .completionWrite .completionWrite [a] n))

/-! ## The link -/

/-- SIGNAL_ACQUIRED and SIGNAL_LOST in every link state (R32, R34, R41), and the expiry of the hello timer in HELLO
and of the holdoff timer in HOLDOFF (R34, R39). A signal lost in UP begins a teardown, which is applied at once with the
framer free and waits for the transmission in progress otherwise. A leaving of HELLO that waits so is held in the model's
field helloExit (log entry 6). -/
def Obligations.SignalAndLinkTimers : Prop :=
  (∀ s : State,
      (s.lk.state = .awaitSignal → exec .signalAcquired s = s.become
        { s.toPart with lk := { s.lk with
            signalPresent := true, state := .hello
            localEpoch := if s.lk.localEpoch = 255 then 1 else s.lk.localEpoch + 1
            peerEpoch := 0, helloDue := .periodic, helloTimer := .running s.cm.timers.helloInterval
            helloExit := none } })
      ∧ (s.lk.state ≠ .awaitSignal → exec .signalAcquired s = s.become
          { s.toPart with lk := { s.lk with signalPresent := true } })
      ∧ (s.lk.state = .hello → s.lk.helloExit = none → s.lk.transmission = none → exec .signalLost s = s.become
          { s.toPart with lk := { s.lk with
              signalPresent := false, state := .awaitSignal, helloDue := .none, helloTimer := .idle } })
      ∧ (s.lk.state = .hello → s.lk.helloExit = none → s.lk.transmission ≠ none → exec .signalLost s = s.become
          { s.toPart with lk := { s.lk with
              signalPresent := false, helloDue := .none, helloTimer := .idle, helloExit := some false } })
      ∧ (s.lk.state = .up → s.lk.teardown = none →
          let begun : Link := { s.lk with signalPresent := false, teardown := some ⟨.signalLost, false, none⟩ }
          (s.lk.transmission = none → exec .signalLost s = exec .teardownApply { s with lk := begun })
          ∧ (s.lk.transmission ≠ none → exec .signalLost s = s.become (Part.settle { s.toPart with lk := begun })))
      ∧ ((s.lk.state ≠ .hello ∧ s.lk.state ≠ .up) ∨ (s.lk.state = .hello ∧ s.lk.helloExit ≠ none)
          ∨ (s.lk.state = .up ∧ s.lk.teardown ≠ none) →
          exec .signalLost s = s.become { s.toPart with lk := { s.lk with signalPresent := false } }))
  ∧ (∀ (s : State) (n : Nat),
      (s.lk.state = .hello → s.lk.helloTimer = .running n →
        exec .helloTimerExpiry s = s.become
          { s.toPart with lk := { s.lk with
              helloDue := if s.lk.helloDue = .answer then .answer else .periodic
              helloTimer := .running s.cm.timers.helloInterval } })
      ∧ (s.lk.state = .holdoff → s.lk.holdoffTimer = .running n → s.lk.signalPresent = true →
          exec .holdoffTimerExpiry s = s.become
            { s.toPart with lk := { s.lk with
                state := .hello, holdoffTimer := .idle
                localEpoch := if s.lk.localEpoch = 255 then 1 else s.lk.localEpoch + 1
                peerEpoch := 0, helloDue := .periodic, helloTimer := .running s.cm.timers.helloInterval
                helloExit := none } })
      ∧ (s.lk.state = .holdoff → s.lk.holdoffTimer = .running n → s.lk.signalPresent = false →
          exec .holdoffTimerExpiry s = s.become
            { s.toPart with lk := { s.lk with
                state := .awaitSignal, holdoffTimer := .idle, helloDue := .none, helloTimer := .idle
                helloExit := none } }))

/-- HELLO_ARRIVAL in HELLO (R30, R36, R37): an invalid HELLO is a protocol error; a valid one is recorded and will be
answered, and one whose seen field is the local epoch brings the link up. HELLO_ARRIVAL in UP with no teardown
pending (R30, R38): the teardown that it begins is applied at once with the framer free and waits for the transmission
in progress otherwise (R41). In every other link state, and while a teardown or the leaving of HELLO waits, a HELLO
changes nothing (R29, R32, R40). -/
def Obligations.HelloArrivalEffect : Prop :=
  (∀ (s : State) (h : HelloParcel), s.lk.state = .hello → s.lk.helloExit = none →
      (¬HelloInRange h → exec (.helloArrival h) s = s.become
        { s.toPart with lk := s.lk.withError .helloInvalid })
      ∧ (HelloInRange h → h.seen ≠ s.lk.localEpoch → exec (.helloArrival h) s = s.become
          { s.toPart with lk := { s.lk with
              peerEpoch := h.epoch, peerCode := h.code, peerWindow := h.window, peerLabel := h.label
              helloDue := .answer } })
      ∧ (HelloInRange h → h.seen = s.lk.localEpoch → exec (.helloArrival h) s = s.become
          { s.toPart with
            lk := { s.lk with
              peerEpoch := h.epoch, peerCode := h.code, peerWindow := h.window, peerLabel := h.label
              helloDue := .answer, state := .up, helloTimer := .idle
              payloadSize := 128 * 2 ^ min s.lk.offeredCode h.code
              window := min s.lk.offeredWindow h.window
              eventFlag := true, transitions := countUp 255 s.lk.transitions }
            sq := { s.sq with
              expected := 0, unacknowledged := 0, ackTimer := .idle, retryPending := false, note := .none
              next := 0, replay := [], rewind := none, replayTimer := .idle, replayCount := 0 } }))
  ∧ (∀ (s : State) (h : HelloParcel), s.lk.state = .up → s.lk.teardown = none →
      let due (l : Link) : Link := if h.seen = l.localEpoch then l else { l with helloDue := .answer }
      (¬HelloInRange h → exec (.helloArrival h) s = s.become { s.toPart with lk := s.lk.withError .helloInvalid })
      ∧ (HelloInRange h → h.epoch = s.lk.peerEpoch → h.code = s.lk.peerCode → h.window = s.lk.peerWindow →
          exec (.helloArrival h) s = s.become { s.toPart with lk := due s.lk })
      ∧ (HelloInRange h → h.epoch = s.lk.peerEpoch → h.code ≠ s.lk.peerCode ∨ h.window ≠ s.lk.peerWindow →
          exec (.helloArrival h) s = s.become { s.toPart with lk := due (s.lk.withError .helloMismatch) })
      ∧ (HelloInRange h → h.epoch ≠ s.lk.peerEpoch →
          let begun : Link := { s.lk with teardown := some ⟨.peerRestart, false, some h⟩ }
          (s.lk.transmission = none → exec (.helloArrival h) s = exec .teardownApply { s with lk := begun })
          ∧ (s.lk.transmission ≠ none →
              exec (.helloArrival h) s = s.become (Part.settle { s.toPart with lk := begun }))))
  ∧ (∀ (s : State) (h : HelloParcel),
      (s.lk.state ≠ .hello ∧ s.lk.state ≠ .up) ∨ (s.lk.state = .hello ∧ s.lk.helloExit ≠ none)
        ∨ (s.lk.state = .up ∧ s.lk.teardown ≠ none) →
      exec (.helloArrival h) s = s.become s.toPart)

/-- BAD_PARCEL, bytes that fail the framer's checks (R29, R51): counted in HELLO and UP; in UP a RETRY is noted
unless one is already called for; elsewhere, and while a teardown or the leaving of HELLO waits, nothing changes. In
UP the checks read the payload size in force, and in HELLO no size, which is the model's reading (log entry 16). Bytes
that pass the checks are the parcel they spell (log entry 20). -/
def Obligations.BadParcelEffect : Prop :=
  (∀ (s : State) (bytes : List Byte), readParcel s.LongestPayload bytes = none →
    let counted : Link :=
      { s.lk with counters := { s.lk.counters with badParcels := countUp 4294967295 s.lk.counters.badParcels } }
    (s.lk.state = .up → s.lk.teardown = none → s.sq.retryPending = false →
      exec (.badParcel bytes) s = s.become
        { s.toPart with lk := counted, sq := { s.sq with note := .retry, retryPending := true } })
    ∧ ((s.lk.state = .up ∧ s.lk.teardown = none ∧ s.sq.retryPending = true)
          ∨ (s.lk.state = .hello ∧ s.lk.helloExit = none) →
        exec (.badParcel bytes) s = s.become { s.toPart with lk := counted })
    ∧ ((s.lk.state ≠ .up ∧ s.lk.state ≠ .hello) ∨ (s.lk.state = .up ∧ s.lk.teardown ≠ none)
          ∨ (s.lk.state = .hello ∧ s.lk.helloExit ≠ none) →
        exec (.badParcel bytes) s = s.become s.toPart))
  ∧ (∀ (s : State) (bytes : List Byte) (parcel : Parcel), readParcel s.LongestPayload bytes = some parcel →
      exec (.badParcel bytes) s =
        match parcel with
        | .data n d => exec (.dataArrival n d) s
        | .grant n g => exec (.grantArrival n g) s
        | .withdraw n i => exec (.withdrawArrival n i) s
        | .cut n i => exec (.cutArrival n i) s
        | .void n => exec (.voidArrival n) s
        | .ack n => exec (.ackArrival n) s
        | .retry n => exec (.retryArrival n) s
        | .hello h => exec (.helloArrival h) s)

/-- TEARDOWN_APPLY on the link itself (R41, R42): what is cleared and counted, and the state the pending record
decides, with a LINK_STOP that waited completed OK. CQ then takes what the units offer. -/
def Obligations.TeardownOfTheLink : Prop :=
  ∀ (s : State) (t : Teardown), s.lk.teardown = some t → s.lk.transmission = none →
    let cleared : Link :=
      { s.lk with
        teardown := none, helloDue := .none, peerEpoch := 0, eventFlag := true, latestCause := t.cause
        transitions := countUp 255 s.lk.transitions }
    let hello : Link :=
      { cleared with
        state := .hello, localEpoch := if s.lk.localEpoch = 255 then 1 else s.lk.localEpoch + 1
        helloDue := .periodic, helloTimer := .running s.cm.timers.helloInterval, helloExit := none }
    ∃ q : Part, exec .teardownApply s = s.become q.settle
      ∧ (t.stopRequested = true →
          q.lk = { cleared with
            state := .offline, helloTimer := .idle, holdoffTimer := .idle, helloExit := none }
          ∧ ∀ tag, s.cm.command = some ⟨.linkStop, tag, .acting⟩ →
              q.cm.command = some ⟨.linkStop, tag, .offered .ok⟩)
      ∧ (t.stopRequested = false → t.cause = .replayLimit →
          q.lk = { cleared with
            state := .holdoff, holdoffTimer := .running (1000 * s.cm.timers.faultHoldoff) })
      ∧ (t.stopRequested = false → t.cause ≠ .replayLimit → s.lk.signalPresent = false →
          q.lk = { cleared with state := .awaitSignal, helloTimer := .idle, helloExit := none })
      ∧ (t.stopRequested = false → t.cause ≠ .replayLimit → s.lk.signalPresent = true → t.keptHello = none →
          q.lk = hello)
      ∧ (t.stopRequested = false → t.cause ≠ .replayLimit → s.lk.signalPresent = true →
          ∀ h, t.keptHello = some h →
            q.lk = { hello with
              peerEpoch := h.epoch, peerCode := h.code, peerWindow := h.window, peerLabel := h.label
              helloDue := .answer })

/-- TEARDOWN_APPLY on every other unit (R20, R25, R42, R53, R68, R73, R80, R104, R121, R143). A landing in flight loses
its unplaced bytes and keeps its message's fields until its last write has ended, and one of an earlier link stays as it
is. What a DISRUPTED stream keeps is the model's reading (log entry 13), and so are the slot that a replay's payload
leaves (log entry 22) and the cause of a landing that a close had cut short (log entry 15). -/
def Obligations.TeardownOfTheUnits : Prop :=
  ∀ (s : State) (t : Teardown), s.lk.teardown = some t → s.lk.transmission = none →
    ∃ q : Part, exec .teardownApply s = s.become q.settle
      ∧ (∀ i : Fin 64,
          ((s.stream i).state = .localOpen ∨ (s.stream i).state = .opened ∨ (s.stream i).state = .disrupted →
            q.stream i =
              { state := .disrupted, sendRing := (s.stream i).sendRing, landingRing := (s.stream i).landingRing
                offeredFlag := (s.stream i).offeredFlag, endedFlag := (s.stream i).endedFlag
                protocolFlag := (s.stream i).protocolFlag, protocolCause := (s.stream i).protocolCause
                protocolCount := (s.stream i).protocolCount })
          ∧ ((s.stream i).state = .closing ∨ (s.stream i).state = .winding ∨ (s.stream i).state = .offered
                ∨ (s.stream i).state = .closed →
            q.stream i =
              { offeredFlag := (s.stream i).offeredFlag, endedFlag := (s.stream i).endedFlag
                protocolFlag := (s.stream i).protocolFlag, protocolCause := (s.stream i).protocolCause
                protocolCount := (s.stream i).protocolCount })
          ∧ q.queue i = [])
      ∧ q.control = []
      ∧ q.ib.freeCount = s.ib.freeCount + (s.ib.queues.toList.map dataCount).sum
      ∧ q.ib.reservedTotal = s.ib.reservedTotal - (s.streams.toList.map StreamEntry.allotment).sum
      ∧ q.tx.burst = 0 ∧ q.tx.turnRing = 1 ∧ q.tx.turnCount = 0
      ∧ (∀ d w reads, s.tx.staging = .reading d w reads → q.tx.staging = .reading d false reads)
      ∧ (∀ d payload, s.tx.staging = .ready d payload → q.tx.staging = .empty)
      ∧ q.sq.expected = s.sq.expected ∧ q.sq.next = 0 ∧ q.sq.note = .none ∧ q.sq.retryPending = false
      ∧ q.sq.unacknowledged = 0 ∧ q.sq.ackTimer = .idle ∧ q.sq.replay = [] ∧ q.sq.rewind = none
      ∧ q.sq.replayTimer = .idle ∧ q.sq.replayCount = 0
      ∧ (∀ seq w reads, s.sq.slot = .reading seq w reads → q.sq.slot = .reading seq false reads)
      ∧ (∀ seq payload, s.sq.slot = .ready seq payload → q.sq.slot = .empty)
      ∧ (∀ (r : Fin 4) (c : Fin 32), c ∈ s.sf.fetchOrder.get r → (s.context c).undecided = true →
          (q.context c).state = .completing ∧ (q.context c).outcome = some .linkLost ∧ c ∈ q.sf.line)
      ∧ (∀ c : Fin 32, (s.context c).undecided = false → q.context c = s.context c)
      ∧ (∀ r : Fin 8, (q.landRing r).holder = none ∧ (q.landRing r).claimQueue = []
          ∧ (q.landRing r).gapTimer = .idle ∧ (q.landRing r).cache = (s.landRing r).cache)
      ∧ (∀ (r : Fin 8) (i : Fin 64), (s.landRing r).holder = some i → (s.stream i).reassembly.mode = .assembling →
          (s.landRing r).landing = none → (s.landRing r).waiting = none →
            let m : MessageCompletion :=
              ⟨i, (s.stream i).reassembly.firstSlot, (s.stream i).reassembly.lastSlot,
                (s.stream i).reassembly.bytesSoFar, (s.stream i).reassembly.mark, .linkLost⟩
            (q.landRing r).waiting = some m ∧ (q.landRing r).current = none ∧ .message r m ∈ q.dl.line)
      ∧ (∀ (r : Fin 8) (l : Landing), (s.landRing r).landing = some l →
          let x := (s.stream l.stream).reassembly
          let cause : LandingCause := if l.cause = .hostWriteFault then .hostWriteFault else .linkLost
          let stays (l' : Landing) : Prop :=
            (q.landRing r).landing = some l' ∧ (q.landRing r).current = (s.landRing r).current
              ∧ (q.landRing r).waiting = (s.landRing r).waiting
          (l.kept = none → l.writes ≠ [] →
            stays { l with
              unplaced := [], cause := cause, kept := some ⟨x.bytesSoFar, x.firstSlot, x.lastSlot, x.mark⟩ })
          ∧ (l.kept = none → l.writes = [] →
              let m : MessageCompletion :=
                ⟨l.stream, x.firstSlot, x.lastSlot, x.bytesSoFar, x.mark,
                  if l.cause = .hostWriteFault then .hostWriteFault else .linkLost⟩
              (q.landRing r).landing = none ∧ (q.landRing r).current = none ∧ (q.landRing r).waiting = some m
                ∧ .message r m ∈ q.dl.line)
          ∧ (l.kept ≠ none → l.writes ≠ [] → stays l))
      ∧ (∀ (r : Fin 8), (s.landRing r).landing = none → (s.landRing r).waiting ≠ none →
          (q.landRing r).waiting = (s.landRing r).waiting ∧ (q.landRing r).current = (s.landRing r).current)
      ∧ (∃ more : List DeliveryCompletion, q.dl.line = s.dl.line ++ more)
      ∧ (∀ (i : Fin 64) (tag : BitVec 32), s.cm.command = some ⟨.streamClose i.val, tag, .acting⟩ →
          (s.stream i).state = .closing ∨ (s.stream i).state = .winding →
            q.cm.command = some ⟨.streamClose i.val, tag, .offered .linkLost⟩)
      ∧ q.rings = s.rings ∧ q.cq = s.cq ∧ q.hi = s.hi ∧ q.cm.timers = s.cm.timers

/-! ## Arrivals -/

/-- What the number of a sequenced parcel decides (R29, R48 to R51), by the VOID, which has no other effect: the
expected number is accepted, a number behind it is a duplicate, any other calls for a RETRY once, and a part that
does not listen changes nothing. A parcel of another kind that is not accepted has the VOID's effect. An accepted
parcel whose stream field is 64 or above is a STREAM_INVALID error of the link (R30, R48), and a DATA parcel whose
payload length is 0, or in UP above the payload size in force, is a bad parcel (R29). That no size bounds the payload
outside UP is the model's reading (log entry 16). -/
def Obligations.SequencedNumbers : Prop :=
  (∀ (s : State) (n : Seq),
      (¬s.Listening → exec (.voidArrival n) s = s.become s.toPart)
      ∧ (s.Listening → n = s.sq.expected → exec (.voidArrival n) s = s.become s.accepted)
      ∧ (s.Listening → n ≠ s.sq.expected → (s.sq.expected - n).toNat ≤ s.lk.window →
          exec (.voidArrival n) s = s.become
            { s.toPart with
              sq := { s.sq with note := if s.sq.note = .none then .ack else s.sq.note }
              lk := { s.lk with counters := { s.lk.counters with
                duplicates := countUp 4294967295 s.lk.counters.duplicates } } })
      ∧ (s.Listening → s.lk.window < (s.sq.expected - n).toNat → s.sq.retryPending = false →
          exec (.voidArrival n) s = s.become
            { s.toPart with sq := { s.sq with note := .retry, retryPending := true } })
      ∧ (s.Listening → s.lk.window < (s.sq.expected - n).toNat → s.sq.retryPending = true →
          exec (.voidArrival n) s = s.become s.toPart)
      ∧ (¬(s.Listening ∧ n = s.sq.expected) →
          (∀ g, exec (.grantArrival n g) s = exec (.voidArrival n) s)
          ∧ (∀ i, exec (.cutArrival n i) s = exec (.voidArrival n) s)
          ∧ (∀ d : DataParcel, 1 ≤ d.payload.length → d.payload.length ≤ s.LongestPayload →
              exec (.dataArrival n d) s = exec (.voidArrival n) s)
          ∧ ∀ i, exec (.withdrawArrival n i) s = exec (.voidArrival n) s))
  ∧ (∀ s : State, s.Listening →
      let wrong : Part := { s.accepted with lk := s.lk.withError .streamInvalid }
      (∀ g : GrantParcel, 64 ≤ g.stream → exec (.grantArrival s.sq.expected g) s = s.become wrong)
      ∧ (∀ i, 64 ≤ i → exec (.withdrawArrival s.sq.expected i) s = s.become wrong.settle
          ∧ exec (.cutArrival s.sq.expected i) s = s.become wrong)
      ∧ (∀ d : DataParcel, 64 ≤ d.stream → 1 ≤ d.payload.length → d.payload.length ≤ s.lk.payloadSize →
          exec (.dataArrival s.sq.expected d) s = s.become wrong))
  ∧ (∀ (s : State) (n : Seq) (d : DataParcel) (bytes : List Byte),
      d.payload.length = 0 ∨ s.LongestPayload < d.payload.length → readParcel s.LongestPayload bytes = none →
        exec (.dataArrival n d) s = exec (.badParcel bytes) s)

/-- DATA_ARRIVAL accepted for a stream (R76, R77). In OPEN with room the parcel is stored; the stream then asks for
its ring's claim (R129), and the ring's timer and episode follow (R128, R140). -/
def Obligations.DataArrivalEffect : Prop :=
  ∀ (s : State) (d : DataParcel) (i : Fin 64), s.Listening → d.stream = i.val → 1 ≤ d.payload.length →
    d.payload.length ≤ s.lk.payloadSize →
    let e := s.stream i
    (e.state = .opened → e.occupancy < e.allotment →
      let stored : Part :=
        { s.accepted with
          streams := s.streams.set i { e with occupancy := e.occupancy + 1 }
          ib := { s.ib with
            freeCount := s.ib.freeCount - 1
            queues := s.ib.queues.set i
              (s.queue i ++ [.data ⟨d.index, d.first, d.last, d.mark, d.payload⟩]) } }
      exec (.dataArrival s.sq.expected d) s = s.become ((stored.askClaim i).refreshRing e.landingRing))
    ∧ (e.state = .opened → e.allotment ≤ e.occupancy →
        exec (.dataArrival s.sq.expected d) s = s.become (s.accepted.withStreamError i .dataExcess))
    ∧ (e.state = .closing → exec (.dataArrival s.sq.expected d) s = s.become s.accepted)
    ∧ (e.state ≠ .opened → e.state ≠ .closing →
        exec (.dataArrival s.sq.expected d) s = s.become (s.accepted.withStreamError i .dataUnexpected))

/-- GRANT_ARRIVAL accepted for a stream: what is ignored or an error (R6), and the effect of a valid GRANT by the
stream's state (R7, R8, R22, R82, R83). -/
def Obligations.GrantArrivalEffect : Prop :=
  (∀ (s : State) (g : GrantParcel) (i : Fin 64), s.Listening → g.stream = i.val →
      let e := s.stream i
      let ignored := e.state = .closing ∧ e.peerWithdrawSeen = false
      (ignored → exec (.grantArrival s.sq.expected g) s = s.become s.accepted)
      ∧ (¬ignored → ¬GrantInRange g →
          exec (.grantArrival s.sq.expected g) s = s.become (s.accepted.withStreamError i .grantInvalid))
      ∧ (¬ignored → GrantInRange g → ¬e.Agrees g →
          exec (.grantArrival s.sq.expected g) s = s.become (s.accepted.withStreamError i .grantMismatch)))
  ∧ (∀ (s : State) (g : GrantParcel) (i : Fin 64), s.Listening → g.stream = i.val → GrantInRange g →
      (s.stream i).Agrees g →
      let e := s.stream i
      let entry (e' : StreamEntry) : Part := { s.accepted with streams := s.streams.set i e' }
      let first (entered : StreamState) : StreamEntry :=
        { e with
          state := entered, peerAllotment := g.allotment, peerMaxMessage := g.maxMessage, credits := g.credits
          offeredFlag := true }
      (e.state = .closed → exec (.grantArrival s.sq.expected g) s = s.become (entry (first .offered)))
      ∧ (e.state = .localOpen → exec (.grantArrival s.sq.expected g) s = s.become (entry (first .opened)))
      ∧ (e.state = .offered ∨ e.state = .opened →
          (e.credits + g.credits ≤ e.peerAllotment →
            exec (.grantArrival s.sq.expected g) s = s.become (entry { e with credits := e.credits + g.credits }))
          ∧ (e.peerAllotment < e.credits + g.credits →
              exec (.grantArrival s.sq.expected g) s = s.become
                ((entry { e with credits := e.peerAllotment }).withStreamError i .creditExcess)))
      ∧ ((e.state = .closing ∧ e.peerWithdrawSeen = true) ∨ e.state = .winding ∨ e.state = .disrupted →
          (e.offer = none →
            exec (.grantArrival s.sq.expected g) s = s.become
              (entry { e with offer := some ⟨g.allotment, g.credits, g.maxMessage⟩ }))
          ∧ ∀ o, e.offer = some o →
              (o.credits + g.credits ≤ o.allotment →
                exec (.grantArrival s.sq.expected g) s = s.become
                  (entry { e with offer := some { o with credits := o.credits + g.credits } }))
              ∧ (o.allotment < o.credits + g.credits →
                  exec (.grantArrival s.sq.expected g) s = s.become
                    ((entry { e with offer := some { o with credits := o.allotment } }).withStreamError i
                      .creditExcess))))

/-- WITHDRAW_ARRIVAL accepted for a stream that the peer has opened or heard of (R9, R10, R25, R79): the stream
winds, every undecided context of it is decided PEER_CLOSED in its line's order, the staged parcel goes, a reply
WITHDRAW is queued and a marker joins the inbound queue. In every other state (R11, R21) it discards a pending offer,
is seen by a closing stream, or is an error. CUT_ARRIVAL (R12): a CUT marker joins the inbound queue in OPEN, unless
one waits there already; in every other state the CUT is ignored. The deciding of several contexts goes context by
context in the order given, and the drop of a stream's staged parcel discards a READY payload and marks a READING slot
(R118, R119). No second WITHDRAW joins a waiting one (log entry 10), withdraw sequenced goes with a discarded offer (log
entry 11), and peer withdraw seen stays as it was in WINDING (log entry 12): these are the model's readings. -/
def Obligations.WithdrawAndCutArrivals : Prop :=
  (∀ (s : State) (i : Fin 64), s.Listening →
      let e := s.stream i
      e.state = .offered ∨ e.state = .localOpen ∨ e.state = .opened →
      let wound : Part :=
        { s.accepted with
          streams := s.streams.set i
            { e with state := .winding, peerAllotment := 0, peerMaxMessage := 0, credits := 0, pendingReturns := 0 }
          control := (s.control.filter fun x => !(x.isGrantOf i || x.isCutOf i))
            ++ if s.withdrawWaits i then [] else [.withdraw i] }
      let decided := (wound.decideAll e.sendLine .peerClosed).dropStagedOfStream i
      exec (.withdrawArrival s.sq.expected i.val) s = s.become
        ((({ decided with ib := { decided.ib with
            queues := decided.ib.queues.set i (decided.queue i ++ [InboundEntry.withdrawMarker]) } }).refreshRing
          e.landingRing).settle))
  ∧ (∀ (s : State) (i : Fin 64), s.Listening →
      let e := s.stream i
      (e.state = .closed →
        exec (.withdrawArrival s.sq.expected i.val) s = s.become
          (s.accepted.withStreamError i .withdrawUnexpected).settle)
      ∧ (e.state = .closing ∨ e.state = .winding ∨ e.state = .disrupted → ∀ o, e.offer = some o →
          exec (.withdrawArrival s.sq.expected i.val) s = s.become
            (Part.settle { s.accepted with
              streams := s.streams.set i { e with offer := none, withdrawSequenced := false }
              control := (s.control.filter fun x => !(x.isGrantOf i || x.isCutOf i))
                ++ if s.withdrawWaits i then [] else [.withdraw i] }))
      ∧ (e.state = .closing → e.offer = none → e.peerWithdrawSeen = false →
          exec (.withdrawArrival s.sq.expected i.val) s = s.become
            (Part.exitTest { s.accepted with streams := s.streams.set i { e with peerWithdrawSeen := true } } i).settle)
      ∧ ((e.state = .closing ∧ e.peerWithdrawSeen = true) ∨ e.state = .winding ∨ e.state = .disrupted →
          e.offer = none →
          exec (.withdrawArrival s.sq.expected i.val) s = s.become
            (s.accepted.withStreamError i .withdrawUnexpected).settle))
  ∧ (∀ (s : State) (i : Fin 64), s.Listening →
      ((s.stream i).state = .opened → .cutMarker ∉ s.queue i →
        exec (.cutArrival s.sq.expected i.val) s = s.become
          (Part.refreshRing { s.accepted with ib := { s.ib with
            queues := s.ib.queues.set i (s.queue i ++ [.cutMarker]) } } (s.stream i).landingRing))
      ∧ ((s.stream i).state ≠ .opened ∨ .cutMarker ∈ s.queue i →
          exec (.cutArrival s.sq.expected i.val) s = s.become s.accepted))
  ∧ (∀ (p : Part) (outcome : Status),
      p.decideAll [] outcome = p
      ∧ ∀ c rest, p.decideAll (c :: rest) outcome = (p.decideContext c outcome).decideAll rest outcome)
  ∧ (∀ (p : Part) (i : Fin 64),
      (∀ d wanted reads, p.tx.staging = .reading d wanted reads → d.stream = i →
        p.dropStagedOfStream i = { p with tx := { p.tx with staging := .reading d false reads } })
      ∧ (∀ d payload, p.tx.staging = .ready d payload → d.stream = i →
          p.dropStagedOfStream i = { p with tx := { p.tx with staging := .empty } })
      ∧ ((∀ d wanted reads, p.tx.staging = .reading d wanted reads → d.stream ≠ i) →
          (∀ d payload, p.tx.staging = .ready d payload → d.stream ≠ i) → p.dropStagedOfStream i = p))

/-- The exits from CLOSING and WINDING (R2, R3, R18, R19, R22): the stream leaves once its conditions hold, for
OFFERED with a pending offer and for CLOSED without one, and stays otherwise. The STREAM_CLOSE of the stream that waits
for this completes, and its completion is offered (R18, R19, R166, R172); with no such command in progress nothing more
changes. -/
def Obligations.StreamExits : Prop :=
  (∀ (p : Part) (i : Fin 64) (status : Status),
      (∀ tag, p.cm.command = some ⟨.streamClose i.val, tag, .acting⟩ →
        p.reportClose i status =
          { p with cm := { p.cm with command := some ⟨.streamClose i.val, tag, .offered status⟩ } })
      ∧ ((∀ tag, p.cm.command ≠ some ⟨.streamClose i.val, tag, .acting⟩) → p.reportClose i status = p))
  ∧ ∀ (p : Part) (i : Fin 64),
    let e := p.stream i
    let quiet := e.sendLine = [] ∧ (p.landRing e.landingRing).holder ≠ some i
      ∧ i ∉ (p.landRing e.landingRing).claimQueue
    let leave (e : StreamEntry) : StreamEntry :=
      match e.offer with
      | none =>
        { offeredFlag := e.offeredFlag, endedFlag := e.endedFlag, protocolFlag := e.protocolFlag
          protocolCause := e.protocolCause, protocolCount := e.protocolCount }
      | some o =>
        { state := .offered, peerAllotment := o.allotment, credits := o.credits, peerMaxMessage := o.maxMessage
          offeredFlag := true, endedFlag := e.endedFlag, protocolFlag := e.protocolFlag
          protocolCause := e.protocolCause, protocolCount := e.protocolCount }
    (e.state = .closing → e.withdrawSequenced = true → e.peerWithdrawSeen = true → quiet →
      p.exitTest i = Part.reportClose { p with streams := p.streams.set i (leave e) } i .ok)
    ∧ (e.state = .winding → e.withdrawSequenced = true → e.markerProcessed = true → quiet →
        let left : Part := { p with ib := { p.ib with reservedTotal := p.ib.reservedTotal - e.allotment } }
        (e.closeWaiting = true →
          p.exitTest i = Part.reportClose { left with streams := p.streams.set i (leave e) } i .ok)
        ∧ (e.closeWaiting = false →
            p.exitTest i = { left with streams := p.streams.set i { leave e with endedFlag := true } }))
    ∧ ((e.state = .closing → ¬(e.withdrawSequenced = true ∧ e.peerWithdrawSeen = true ∧ quiet)) →
        (e.state = .winding → ¬(e.withdrawSequenced = true ∧ e.markerProcessed = true ∧ quiet)) →
        p.exitTest i = p)

/-- ACK_ARRIVAL (R46, R56, R57): a number within the list removes the entries before it, and the context of each LIVE
DATA entry among them counts one acknowledged parcel, in order; any other number is stale. RETRY_ARRIVAL (R57, R58,
R65): it is counted; within the list it acts as an ACK of its number and then sets the rewind position there, unless
its number is the next one; any other number is stale. Where the link is not UP, or a teardown is pending, neither
changes anything (R29). -/
def Obligations.AcknowledgementArrivals : Prop :=
  (∀ (s : State) (n : Seq), ¬s.Listening →
      exec (.ackArrival n) s = s.become s.toPart ∧ exec (.retryArrival n) s = s.become s.toPart)
  ∧ (∀ (s : State) (n : Seq), s.Listening →
      let gone := (n - s.sq.oldest).toNat
      let within := gone ≤ (s.sq.next - s.sq.oldest).toNat
      let rest := s.sq.replay.drop gone
      let removed := s.sq.replay.take gone
      (¬within → exec (.ackArrival n) s = s.become
        { s.toPart with lk := { s.lk with counters := { s.lk.counters with
          staleAcks := countUp 4294967295 s.lk.counters.staleAcks } } })
      ∧ (within → removed = [] → exec (.ackArrival n) s = s.become s.settle)
      ∧ (within → removed ≠ [] →
          let after : Part :=
            { s.toPart with sq := { s.sq with
                replay := rest, replayCount := 0
                replayTimer := if rest = [] then .idle else .running s.cm.timers.replayTimeout
                rewind :=
                  match s.sq.rewind with
                  | none => none
                  | some w =>
                    if rest = [] then none else if (w - s.sq.oldest).toNat < gone then some n else some w
                slot :=
                  match s.sq.slot with
                  | .empty => .empty
                  | .reading seq w reads =>
                    if ∃ x ∈ removed, x.seq = seq then .reading seq false reads else .reading seq w reads
                  | .ready seq payload => if ∃ x ∈ removed, x.seq = seq then .empty else .ready seq payload } }
          exec (.ackArrival n) s = s.become
            (((removed.filterMap fun x =>
                match x.content with
                | .data c _ _ _ _ _ _ _ => some c
                | _ => none).foldl Part.acknowledged after).settle)))
  ∧ (∀ (s : State) (n : Seq), s.Listening →
      let counted : Part := { s.toPart with lk := { s.lk with counters := { s.lk.counters with
        retriesReceived := countUp 4294967295 s.lk.counters.retriesReceived } } }
      let within := (n - s.sq.oldest).toNat ≤ (s.sq.next - s.sq.oldest).toNat
      (¬within → exec (.retryArrival n) s = s.become
        { counted with lk := { counted.lk with counters := { counted.lk.counters with
          staleAcks := countUp 4294967295 s.lk.counters.staleAcks } } })
      ∧ (within → n = s.sq.next → exec (.retryArrival n) s = s.become (counted.acknowledge n).settle)
      ∧ (within → n ≠ s.sq.next →
          let q := counted.acknowledge n
          exec (.retryArrival n) s = s.become
            (Part.settle { q with sq := { q.sq with
              rewind := some n
              slot :=
                match q.sq.slot with
                | .empty => .empty
                | .reading seq w reads => if seq = n then .reading seq w reads else .reading seq false reads
                | .ready seq payload => if seq = n then .ready seq payload else .empty } })))

/-- ACK_DELAY_EXPIRY and REPLAY_TIMER_EXPIRY (R39, R49, R52, R59, R65). The teardown that a link fault begins is applied
at once with the framer free, and waits for the transmission in progress otherwise (R41). -/
def Obligations.SequencingTimers : Prop :=
  ∀ (s : State) (k : Nat),
    (s.sq.ackTimer = .running k → exec .ackDelayExpiry s = s.become
      { s.toPart with sq := { s.sq with
          ackTimer := .idle, note := if s.sq.note = .none then .ack else s.sq.note } })
    ∧ (s.sq.replayTimer = .running k → s.sq.replayCount + 1 ≤ s.cm.timers.replayLimit →
        exec .replayTimerExpiry s = s.become
          { s.toPart with sq := { s.sq with
              replayCount := s.sq.replayCount + 1, replayTimer := .running s.cm.timers.replayTimeout
              rewind := some s.sq.oldest
              slot :=
                match s.sq.slot with
                | .empty => .empty
                | .reading seq w reads =>
                  if seq = s.sq.oldest then .reading seq w reads else .reading seq false reads
                | .ready seq payload => if seq = s.sq.oldest then .ready seq payload else .empty } })
    ∧ (s.sq.replayTimer = .running k → s.cm.timers.replayLimit < s.sq.replayCount + 1 →
        (s.Listening →
          let begun : State :=
            { s with
              sq := { s.sq with replayCount := s.sq.replayCount + 1, replayTimer := .idle }
              lk := { s.lk with
                teardown := some ⟨.replayLimit, false, none⟩
                counters := { s.lk.counters with linkFaults := countUp 4294967295 s.lk.counters.linkFaults } } }
          (s.lk.transmission = none → exec .replayTimerExpiry s = exec .teardownApply begun)
          ∧ (s.lk.transmission ≠ none → exec .replayTimerExpiry s = s.become begun.settle))
        ∧ (¬s.Listening → exec .replayTimerExpiry s = s.become
            { s.toPart with sq := { s.sq with replayCount := s.sq.replayCount + 1, replayTimer := .idle } }))

/-! ## The transmitter -/

/-- SEND_HELLO (R35, R108): in HELLO and UP, a HELLO that is due goes out first. SEND_PENDING_NOTE (R52, R108): the
note goes out after a HELLO that is due, with E as it stands. SEND_REPLAY (R60, R62): the entry at the rewind
position goes out again under its own number with its own content, and the position moves on or is cleared; LIVE DATA
waits for its refetched payload. -/
def Obligations.UnnumberedSends : Prop :=
  (∀ s : State, s.FramerOpen →
      ((s.lk.state = .hello ∨ s.lk.state = .up) → s.lk.helloDue ≠ .none →
        exec .sendHello s = s.become
          { s.toPart with lk := { s.lk with
              helloDue := .none
              transmission := some (.hello
                { epoch := s.lk.localEpoch, seen := if s.lk.helloDue = .answer then s.lk.peerEpoch else 0
                  code := s.lk.offeredCode, window := s.lk.offeredWindow, label := s.hi.config.nodeLabel }) } })
      ∧ ((s.lk.state ≠ .hello ∧ s.lk.state ≠ .up) ∨ s.lk.helloDue = .none → exec .sendHello s = s.become s.toPart))
  ∧ (∀ s : State, s.FramerOpen → s.lk.state = .up → s.lk.helloDue = .none →
      let sent : Sequencing := { s.sq with note := .none, unacknowledged := 0, ackTimer := .idle }
      (s.sq.note = .ack → exec .sendPendingNote s = s.become
        { s.toPart with sq := sent, lk := { s.lk with transmission := some (.ack s.sq.expected) } })
      ∧ (s.sq.note = .retry → exec .sendPendingNote s = s.become
          { s.toPart with
            sq := sent
            lk := { s.lk with
              transmission := some (.retry s.sq.expected)
              counters := { s.lk.counters with
                retriesSent := countUp 4294967295 s.lk.counters.retriesSent } } })
      ∧ (s.sq.note = .none → exec .sendPendingNote s = s.become s.toPart))
  ∧ (∀ (s : State) (n : Seq) (e : ReplayEntry), s.FramerOpen → s.lk.state = .up → s.lk.helloDue = .none →
      s.sq.note = .none → s.sq.rewind = some n → s.sq.replay.find? (fun x => decide (x.seq = n)) = some e →
      let moved (slot : ReplaySlot) : Sequencing :=
        { s.sq with rewind := if n + 1 = s.sq.next then none else some (n + 1), slot := slot }
      let out (slot : ReplaySlot) (parcel : Parcel) : Part :=
        { s.toPart with
          sq := moved slot
          lk := { s.lk with
            transmission := some parcel
            counters := { s.lk.counters with
              parcelsReplayed := countUp 4294967295 s.lk.counters.parcelsReplayed } } }
      (∀ c i index offset length first last mark, e.content = .data c i index offset length first last mark →
        (∀ payload, s.sq.slot = .ready n payload → exec .sendReplay s = s.become
          (out .empty (.data n ⟨i.val, index, first, last, mark, payload⟩)))
        ∧ ((∀ payload, s.sq.slot ≠ .ready n payload) → exec .sendReplay s = s.become s.toPart))
      ∧ ((∀ payload, s.sq.slot ≠ .ready n payload) →
          (∀ i a c m, e.content = .grant i a c m →
            exec .sendReplay s = s.become (out s.sq.slot (.grant n ⟨i.val, a, c, m⟩)))
          ∧ (∀ i, e.content = .withdraw i → exec .sendReplay s = s.become (out s.sq.slot (.withdraw n i.val)))
          ∧ (∀ i, e.content = .cut i → exec .sendReplay s = s.become (out s.sq.slot (.cut n i.val)))
          ∧ (e.content = .void → exec .sendReplay s = s.become (out s.sq.slot (.void n))))
      ∧ (∀ payload, s.sq.slot = .ready n payload → e.content = .void →
          exec .sendReplay s = s.become (out .empty (.void n))))

/-- SEND_CONTROL_PARCEL (R23, R55, R110): the head leaves the queue, takes the next number and is listed with its
exact content; a WITHDRAW is reported sequenced, which may let its stream go (R17). -/
def Obligations.SendControlEffect : Prop :=
  ∀ (s : State) (rest : List ControlEntry), s.MaySequence →
    let sent (content : Content) (parcel : Parcel) : Part :=
      { s.toPart with control := rest, sq := s.numbered content, lk := s.lk.sending parcel }
    (∀ i a c m, s.control = .grant i a c m :: rest → exec .sendControlParcel s = s.become
      (sent (.grant i a c m) (.grant s.sq.next ⟨i.val, a, c, m⟩)).settle)
    ∧ (∀ i, s.control = .cut i :: rest → exec .sendControlParcel s = s.become
        (sent (.cut i) (.cut s.sq.next i.val)).settle)
    ∧ (∀ i, s.control = .withdraw i :: rest →
        let q := sent (.withdraw i) (.withdraw s.sq.next i.val)
        exec .sendControlParcel s = s.become
          ((Part.exitTest { q with
            streams := q.streams.set i { s.stream i with withdrawSequenced := true } } i).settle))

/-- SEND_DATA_PARCEL whose recheck passes (R55, R67, R81, R100, R112, R113, R117): the number, the credit, the
cursor, the burst and turn counts, and nothing else. The contexts ahead of it on the stream's line are marked as overtaken,
in the model's own field for R67 (log entry 17). One whose recheck fails drops the staged parcel and spends
nothing (R117, R119); with a control parcel ready, or no room for a new number, the staged parcel waits (R108, R109). -/
def Obligations.SendDataEffect : Prop :=
  (∀ (s : State) (d : Described) (payload : List Byte), s.MaySequence → s.control = [] →
      s.tx.staging = .ready d payload → (s.stream d.stream).state = .opened → 1 ≤ (s.stream d.stream).credits →
      (s.context d.context).undecided = true →
      let x := s.context d.context
      let ahead := (s.stream d.stream).sendLine.takeWhile fun c => decide (c ≠ d.context)
      ∃ q : Part, exec .sendDataParcel s = s.become q
        ∧ q.sq = s.numbered (.data d.context d.stream d.index d.offset d.length d.first d.last d.mark)
        ∧ q.lk = s.lk.sending (.data s.sq.next ⟨d.stream.val, d.index, d.first, d.last, d.mark, payload⟩)
        ∧ q.streams = s.streams.set d.stream
            { s.stream d.stream with credits := (s.stream d.stream).credits - 1 }
        ∧ q.context d.context =
            { x with
              nextIndex := x.nextIndex + 1, nextOffset := x.nextOffset + d.length
              state := if x.nextIndex + 1 = x.parcelCount then .sent else .sending }
        ∧ (∀ c, c ≠ d.context → q.context c =
            if c ∈ ahead then { s.context c with laterSequenced := true } else s.context c)
        ∧ q.sf.line = s.sf.line ∧ q.sf.fetchOrder = s.sf.fetchOrder
        ∧ q.tx.staging = .empty ∧ q.tx.turnRing = s.tx.turnRing
        ∧ (d.context.val < 8 →
            q.tx.turnCount = s.tx.turnCount
            ∧ ((∃ r ∈ [1, 2, 3], ∃ c ∈ s.sf.fetchOrder.get r, s.Eligible c) →
                q.tx.burst = min s.hi.config.burstLimit (s.tx.burst + 1))
            ∧ ((¬∃ r ∈ [1, 2, 3], ∃ c ∈ s.sf.fetchOrder.get r, s.Eligible c) → q.tx.burst = 0))
        ∧ (8 ≤ d.context.val → q.tx.turnCount = s.tx.turnCount + 1 ∧ q.tx.burst = 0)
        ∧ q.hi = s.hi ∧ q.control = s.control ∧ q.ib = s.ib ∧ q.dl = s.dl ∧ q.cq = s.cq ∧ q.cm = s.cm
        ∧ q.rings = s.rings ∧ q.choice = s.choice)
  ∧ (∀ (s : State) (d : Described) (payload : List Byte), s.tx.staging = .ready d payload →
      (s.MaySequence → s.control = [] →
        (s.stream d.stream).state ≠ .opened ∨ (s.stream d.stream).credits = 0
          ∨ (s.context d.context).undecided = false →
        exec .sendDataParcel s = s.become { s.toPart with tx := { s.tx with staging := .empty } })
      ∧ (s.MaySequence → s.control ≠ [] → exec .sendDataParcel s = s.become s.toPart)
      ∧ (¬s.FramerOpen ∨ s.lk.state ≠ .up ∨ s.lk.window ≤ s.sq.replay.length ∨ s.sq.rewind ≠ none →
          exec .sendDataParcel s = s.become s.toPart))

/-- TRANSMISSION_END (R28, R32, R40, R41): the framer is free, and what waited for it is applied: a teardown, or the
leaving of HELLO for OFFLINE, HELLO or AWAIT_SIGNAL (log entry 6). -/
def Obligations.TransmissionEndEffect : Prop :=
  ∀ (s : State) (parcel : Parcel), s.lk.transmission = some parcel →
    let free : Link := { s.lk with transmission := none }
    (s.lk.teardown = none → s.lk.helloExit = none →
      exec .transmissionEnd s = s.become (Part.settle { s.toPart with lk := free }))
    ∧ (s.lk.teardown ≠ none →
        exec .transmissionEnd s = exec .teardownApply { s with lk := free })
    ∧ (s.lk.teardown = none → s.lk.helloExit = some true →
        ∃ q : Part, exec .transmissionEnd s = s.become q.settle
          ∧ q.lk = { free with
              state := .offline, helloDue := .none, helloTimer := .idle, holdoffTimer := .idle, helloExit := none }
          ∧ ∀ tag, s.cm.command = some ⟨.linkStop, tag, .acting⟩ →
              q.cm.command = some ⟨.linkStop, tag, .offered .ok⟩)
    ∧ (s.lk.teardown = none → s.lk.helloExit = some false → s.lk.signalPresent = true →
        exec .transmissionEnd s = s.become (Part.settle { s.toPart with lk := { free with
          state := .hello, localEpoch := if s.lk.localEpoch = 255 then 1 else s.lk.localEpoch + 1
          peerEpoch := 0, helloDue := .periodic, helloTimer := .running s.cm.timers.helloInterval
          helloExit := none } }))
    ∧ (s.lk.teardown = none → s.lk.helloExit = some false → s.lk.signalPresent = false →
        exec .transmissionEnd s = s.become (Part.settle { s.toPart with lk := { free with
          state := .awaitSignal, helloDue := .none, helloTimer := .idle, helloExit := none } }))

/-- DATA_PICK (R111 to R114): which ring and which of its contexts TX picks, and that it picks nothing where no
context is eligible. -/
def Obligations.DataPickOrder : Prop :=
  ∀ s : State, s.hi.deviceState = .running → s.lk.state = .up → s.lk.teardown = none → s.tx.staging = .empty →
    let picks (r : Fin 4) (c : Fin 32) : Prop :=
      ∃ before after, s.sf.fetchOrder.get r = before ++ c :: after ∧ s.Eligible c ∧ ∀ x ∈ before, ¬s.Eligible x
    let idle (r : Fin 4) : Prop := ∀ x ∈ s.sf.fetchOrder.get r, ¬s.Eligible x
    let turned (r : Fin 4) : Part := { s.toPart with tx := { s.tx with turnRing := r, turnCount := 0 } }
    let weight (r : Fin 4) : Nat :=
      if r = 1 then s.hi.config.weight1 else if r = 2 then s.hi.config.weight2 else s.hi.config.weight3
    let next (r : Fin 4) : Fin 4 := if r = 1 then 2 else if r = 2 then 3 else 1
    let held := ∀ c, picks 0 c → s.hi.config.burstLimit ≤ s.tx.burst ∧ ¬(idle 1 ∧ idle 2 ∧ idle 3)
    let t := s.tx.turnRing
    (∀ c, picks 0 c → s.tx.burst < s.hi.config.burstLimit ∨ (idle 1 ∧ idle 2 ∧ idle 3) →
      exec .dataPick s = s.become (s.gather c))
    ∧ (t ∈ [1, 2, 3] → held →
        (∀ c, picks t c → s.tx.turnCount < weight t → exec .dataPick s = s.become (s.gather c))
        ∧ (idle t ∨ weight t ≤ s.tx.turnCount →
            (∀ c, picks (next t) c → exec .dataPick s = s.become ((turned (next t)).gather c))
            ∧ (idle (next t) → ∀ c, picks (next (next t)) c →
                exec .dataPick s = s.become ((turned (next (next t))).gather c))
            ∧ (idle (next t) → idle (next (next t)) → ∀ c, picks t c →
                exec .dataPick s = s.become ((turned t).gather c))))
    ∧ (idle 0 → idle 1 → idle 2 → idle 3 → t ∈ [1, 2, 3] → exec .dataPick s = s.become s.toPart)

/-- The gathering of a picked context's next parcel (R115): how the parcel is described, and that the slot is READING
with a host read in flight for each fragment the payload touches. The host reads of a gathering or a refetch bring,
in the order they were made, exactly the message's bytes from the offset on, whatever host memory holds (R61, R115); an
address is formed modulo 2^64 (log entry 28). GATHER_READ_END (R116, R119, R120): a gathering ends with its last read,
and each read has an end of its own (log entry 29). A CUT asked for joins the control queue while the stream is OPEN with
no WITHDRAW or CUT of it waiting, and is dropped otherwise (R25). -/
def Obligations.PayloadGathering : Prop :=
  (∀ (p : Part) (c : Fin 32) (i : Fin 64), (p.context c).stream = i.val →
      let x := p.context c
      let length := min p.lk.payloadSize (x.totalLength - x.nextOffset)
      let reads := payloadReads x.fragments x.nextOffset length
      p.gather c =
        { p with
          tx := { p.tx with
            staging := .reading
              { context := c, stream := i, index := x.nextIndex, offset := x.nextOffset, length := length
                first := decide (x.nextIndex = 0), last := decide (x.nextIndex + 1 = x.parcelCount)
                mark := if x.nextIndex = 0 then x.mark else 0 }
              true reads }
          hi := { p.hi with
            accesses := p.hi.accesses ++
              reads.mapIdx (fun k r => ⟨.gatherRead k, r.address, r.length, []⟩) } })
  ∧ (∀ (m : Addr → Byte) (fragments : List Fragment) (offset length : Nat),
      let reads := payloadReads fragments offset length
      (reads.flatMap fun r => hostBytes m r.address r.length)
          = ((fragments.flatMap fun f => hostBytes m f.address f.length).drop offset).take length
        ∧ ∀ r ∈ reads, r.result = none ∧ 1 ≤ r.length
            ∧ ∃ f ∈ fragments, ∃ o, r.address = f.address + BitVec.ofNat 64 o ∧ o + r.length ≤ f.length)
  ∧ (∀ (s : State) (k : Nat) (result : ReadEnd) (a : Access) (d : Described) (wanted : Bool) (reads : List HostRead),
      s.hi.deviceState = .running → s.access? (.gatherRead k) = some a → result.hasLength a.length = true →
      s.tx.staging = .reading d wanted reads →
      let ended := reads.modify k fun r => { r with result := some result }
      let with_ (staging : Staging) : Part :=
        { s.toPart with
          hi := { s.hi with accesses := s.hi.accesses.filter fun x => decide (x.kind ≠ .gatherRead k) }
          tx := { s.tx with staging := staging } }
      ((∃ r ∈ ended, r.result = none) →
        exec (.gatherReadEnd k result) s = s.become (with_ (.reading d wanted ended)).settle)
      ∧ ((∀ r ∈ ended, r.result ≠ none) → wanted = false →
          exec (.gatherReadEnd k result) s = s.become (with_ .empty).settle)
      ∧ (∀ parts : List (List Byte), ended.map HostRead.result = parts.map (fun b => some (.data b)) → wanted = true →
          exec (.gatherReadEnd k result) s = s.become (with_ (.ready d parts.flatten)).settle)
      ∧ ((∀ r ∈ ended, r.result ≠ none) → (∃ r ∈ ended, r.result = some .failed) → wanted = true →
          let decided :=
            if (s.context d.context).undecided then (with_ .empty).decideContext d.context .hostReadFault
            else with_ .empty
          exec (.gatherReadEnd k result) s = s.become
            (if 0 < (s.context d.context).nextIndex then decided.queueCut d.stream else decided).settle))
  ∧ (∀ (p : Part) (i : Fin 64),
      ((p.stream i).state = .opened → .withdraw i ∉ p.control → .cut i ∉ p.control →
        p.queueCut i = { p with control := p.control ++ [.cut i] })
      ∧ ((p.stream i).state ≠ .opened ∨ .withdraw i ∈ p.control ∨ .cut i ∈ p.control → p.queueCut i = p))

/-- REFETCH_START and REFETCH_END (R61 to R67): a refetch of the LIVE DATA entry at the rewind position, and its end
with the last of its reads. A context's entries that turn VOID lose their content and keep their numbers and places, and
a refetch of one of them is dropped, or its payload discarded (R64, R66). Whether a later message has been sequenced is
read from the model's own field (log entry 17), and a refetch fault past the replay limit has the same effect (log entry
34). -/
def Obligations.RefetchEffect : Prop :=
  (∀ (p : Part) (c : Fin 32),
      let mine (x : ReplayEntry) : Prop := ∃ j k o n f l m, x.content = .data c j k o n f l m
      ∃ slot,
        p.voidEntries c =
          { p with sq := { p.sq with
              replay := p.sq.replay.map fun x =>
                match x.content with
                | .data c' _ _ _ _ _ _ _ => if c' = c then { x with content := .void } else x
                | _ => x
              slot := slot } }
        ∧ (∀ n w reads, p.sq.slot = .reading n w reads → (∃ x ∈ p.sq.replay, mine x ∧ x.seq = n) →
            slot = .reading n false reads)
        ∧ (∀ n payload, p.sq.slot = .ready n payload → (∃ x ∈ p.sq.replay, mine x ∧ x.seq = n) → slot = .empty)
        ∧ ((∀ n w reads, p.sq.slot = .reading n w reads → ∀ x ∈ p.sq.replay, mine x → x.seq ≠ n) →
            (∀ n payload, p.sq.slot = .ready n payload → ∀ x ∈ p.sq.replay, mine x → x.seq ≠ n) →
            slot = p.sq.slot))
  ∧ ∀ s : State, s.hi.deviceState = .running →
    (∀ (n : Seq) c i index offset length first last mark, s.lk.teardown = none → s.sq.slot = .empty →
      s.sq.rewind = some n →
      s.sq.replay.find? (fun x => decide (x.seq = n)) =
        some ⟨n, .data c i index offset length first last mark⟩ →
      let reads := payloadReads (s.context c).fragments offset length
      exec .refetchStart s = s.become
        { s.toPart with
          sq := { s.sq with slot := .reading n true reads }
          hi := { s.hi with
            accesses := s.hi.accesses ++ reads.mapIdx (fun k r => ⟨.refetchRead k, r.address, r.length, []⟩) } })
    ∧ (s.lk.teardown ≠ none ∨ s.sq.slot ≠ .empty ∨ s.sq.rewind = none →
        exec .refetchStart s = s.become s.toPart)
    ∧ ∀ (k : Nat) (result : ReadEnd) (a : Access) (n : Seq) (wanted : Bool) (reads : List HostRead),
        s.access? (.refetchRead k) = some a → result.hasLength a.length = true →
        s.sq.slot = .reading n wanted reads →
        let ended := reads.modify k fun r => { r with result := some result }
        let with_ (slot : ReplaySlot) : Part :=
          { s.toPart with
            hi := { s.hi with accesses := s.hi.accesses.filter fun x => decide (x.kind ≠ .refetchRead k) }
            sq := { s.sq with slot := slot } }
        ((∃ r ∈ ended, r.result = none) →
          exec (.refetchEnd k result) s = s.become (with_ (.reading n wanted ended)).settle)
        ∧ ((∀ r ∈ ended, r.result ≠ none) → wanted = false →
            exec (.refetchEnd k result) s = s.become (with_ .empty).settle)
        ∧ (∀ parts : List (List Byte), ended.map HostRead.result = parts.map (fun b => some (.data b)) →
            wanted = true → exec (.refetchEnd k result) s = s.become (with_ (.ready n parts.flatten)).settle)
        ∧ (∀ c i index offset length first last mark, (∀ r ∈ ended, r.result ≠ none) →
            (∃ r ∈ ended, r.result = some .failed) → wanted = true →
            s.sq.replay.find? (fun x => decide (x.seq = n)) =
              some ⟨n, .data c i index offset length first last mark⟩ →
            let void := (with_ .empty).voidEntries c
            let decided := if (s.context c).undecided then void.decideContext c .hostReadFault else void
            exec (.refetchEnd k result) s = s.become
              (if (s.context c).laterSequenced then decided else decided.queueCut i).settle)

/-! ## Rings and records -/

/-- RING_READ_END in success (R89): a record handed over is copied, returned and used by its unit at once; one that
is not is read again after a notification that crossed the read, and leaves the ring IDLE otherwise. -/
def Obligations.RingReadEndEffect : Prop :=
  ∀ (s : State) (ring : RingId) (record : List Byte) (a : Access), s.hi.deviceState = .running →
    s.access? (.ringRead ring) = some a → record.length = a.length →
    let ended : HostInterface :=
      { s.hi with accesses := s.hi.accesses.filter fun x => decide (x.kind ≠ .ringRead ring) }
    (fieldAt record 0x1F 1 = 0xA5 →
      let position := (s.consumer ring).position
      (ring = .command → exec (.ringReadEnd ring (.data record)) s = s.become
        ((s.afterCopy ring).takeCommand (readTag record) (readCommand record)).settle)
      ∧ (∀ r, ring = .send r → exec (.ringReadEnd ring (.data record)) s = s.become
          ((s.afterCopy ring).takeSendRecord r position (readSendRecord record)).settle)
      ∧ (∀ r, ring = .landing r → exec (.ringReadEnd ring (.data record)) s = s.become
          ((s.afterCopy ring).takeLandingRecord r position (BitVec.ofNat 64 (fieldAt record 0 8))
            (fieldAt record 8 4)).settle))
    ∧ (fieldAt record 0x1F 1 ≠ 0xA5 → (s.consumer ring).renotify = true →
        exec (.ringReadEnd ring (.data record)) s = s.become
          { s.modConsumer ring fun c => { c with renotify := false, state := .reading } with
            hi := { ended with
              accesses := ended.accesses ++
                [⟨.ringRead ring, (s.ringConfig ring).base + BitVec.ofNat 64 (32 * (s.consumer ring).position), 32,
                  []⟩] } })
    ∧ (fieldAt record 0x1F 1 ≠ 0xA5 → (s.consumer ring).renotify = false →
        exec (.ringReadEnd ring (.data record)) s = s.become
          { s.modConsumer ring fun c => { c with state := .idle } with hi := ended })

/-- CUSTODY_WRITE_END in success and HELD_RING_READ (R90, R92): the ring reads its next record once its unit has
room, and is HELD until then. When a unit has room for a ring's next record (R92). -/
def Obligations.CustodyAndHeldRings : Prop :=
  (∀ (s : State) (ring : RingId), s.hi.deviceState = .running →
      let address := (s.ringConfig ring).base + BitVec.ofNat 64 (32 * (s.consumer ring).position)
      let ended : HostInterface :=
        { s.hi with accesses := s.hi.accesses.filter fun x => decide (x.kind ≠ .custodyWrite ring) }
      (∀ a, s.access? (.custodyWrite ring) = some a →
        (s.hasRoom ring = true → exec (.custodyWriteEnd ring true) s = s.become
          { s.modConsumer ring fun c => { c with state := .reading } with
            hi := { ended with accesses := ended.accesses ++ [⟨.ringRead ring, address, 32, []⟩] } })
        ∧ (s.hasRoom ring = false → exec (.custodyWriteEnd ring true) s = s.become
            { s.modConsumer ring fun c => { c with state := .held } with hi := ended }))
      ∧ ((s.consumer ring).state = .held → s.hasRoom ring = true → exec (.heldRingRead ring) s = s.become
          { s.modConsumer ring fun c => { c with state := .reading } with
            hi := { s.hi with accesses := s.hi.accesses ++ [⟨.ringRead ring, address, 32, []⟩] } })
      ∧ ((s.consumer ring).state ≠ .held ∨ s.hasRoom ring = false →
          exec (.heldRingRead ring) s = s.become s.toPart))
  ∧ (∀ (p : Part),
      (p.hasRoom .command = true ↔ p.cm.command = none)
      ∧ (∀ r : Fin 4, p.hasRoom (.send r) = true ↔
          ∃ c : Fin 32, c.val / 8 = r.val ∧ ((p.context c).state = .filling ∨ (p.context c).state = .free))
      ∧ ∀ r : Fin 8, p.hasRoom (.landing r) = true ↔ (p.landRing r).cache.length < 4)

/-- The copy of a record handed over has the effect of the record's own row (R89, R94, R125, R165; log entry 5).
SEND_HEAD_RECORD where a HEAD is expected, and STRAY_RECORD (R94 to R96): the ring's lowest-numbered FREE context is
taken. SEND_FRAGMENT_RECORD where a FRAGMENT is expected (R97): a FRAGMENT joins the FILLING context, which is
validated with its last one; a record of any other kind ends the context. -/
def Obligations.SendRecordsTaken : Prop :=
  (∀ (s : State) (record : List Byte) (a : Access), fieldAt record 0x1F 1 = 0xA5 → record.length = a.length →
      (∀ r : Fin 4, s.access? (.ringRead (.send r)) = some a →
        (∀ h, readSendRecord record = .head h →
          exec (.ringReadEnd (.send r) (.data record)) s = exec (.sendHeadRecord r h) s)
        ∧ exec (.ringReadEnd (.send r) (.data record)) s = exec (.sendFragmentRecord r (readSendRecord record)) s
        ∧ exec (.ringReadEnd (.send r) (.data record)) s = exec (.strayRecord r (readSendRecord record)) s)
      ∧ (∀ r : Fin 8, s.access? (.ringRead (.landing r)) = some a →
          exec (.ringReadEnd (.landing r) (.data record)) s =
            exec (.landingRecord r (BitVec.ofNat 64 (fieldAt record 0 8)) (fieldAt record 8 4)) s)
      ∧ (s.access? (.ringRead .command) = some a → ∀ tag, readTag record = tag →
          exec (.ringReadEnd .command (.data record)) s =
            match readCommand record with
            | .linkStart code window => exec (.linkStart tag code window) s
            | .linkStop => exec (.linkStop tag) s
            | .streamOpen i sr lr al b m => exec (.streamOpen tag i sr lr al b m) s
            | .streamClose i => exec (.streamClose tag i) s
            | .streamQuery i address => exec (.streamQuery tag i address) s
            | .linkQuery clear address => exec (.linkQuery tag clear address) s
            | .setTimers x1 x2 x3 x4 x5 x6 => exec (.setTimers tag x1 x2 x3 x4 x5 x6) s
            | .unknown code => exec (.unknownCommand tag code) s))
  ∧ (∀ (s : State) (r : Fin 4) (c : Fin 32), s.ReadInFlight (.send r) → s.filling? r = none →
      (c.val / 8 = r.val ∧ (s.context c).state = .free
        ∧ ∀ c' : Fin 32, c'.val / 8 = r.val → c' < c → (s.context c').state ≠ .free) →
      let position := (s.consumer (.send r)).position
      (∀ h : HeadRecord,
        let begun : Part :=
          { s.afterCopy (.send r) with
            sf := s.contextTaken r c
              { state := .filling, headIndex := position, tag := h.tag, stream := h.stream, mark := h.mark
                fragmentCount := h.fragmentCount, fragments := [⟨h.address, h.length⟩]
                totalLength := h.totalLength } }
        (2 ≤ h.fragmentCount → h.fragmentCount ≤ 16 →
          exec (.sendHeadRecord r h) s = s.become begun.settle)
        ∧ (h.fragmentCount = 1 ∨ h.fragmentCount = 0 ∨ 16 < h.fragmentCount →
            exec (.sendHeadRecord r h) s = s.become (begun.validate c).settle))
      ∧ ∀ record : SendRecord, record.notHead = true →
          exec (.strayRecord r record) s = s.become
            (Part.settle { s.afterCopy (.send r) with
              sf := (s.contextTaken r c { headIndex := position }).completed c .badRecord }))
  ∧ (∀ (s : State) (r : Fin 4) (c : Fin 32), s.ReadInFlight (.send r) → s.filling? r = some c →
      let x := s.context c
      (∀ address length,
        let joined : Part :=
          { s.afterCopy (.send r) with sf := { s.sf with
              contexts := s.sf.contexts.set c { x with fragments := x.fragments ++ [⟨address, length⟩] } } }
        (x.fragments.length + 1 ≠ x.fragmentCount →
          exec (.sendFragmentRecord r (.fragment address length)) s = s.become joined.settle)
        ∧ (x.fragments.length + 1 = x.fragmentCount →
            exec (.sendFragmentRecord r (.fragment address length)) s = s.become (joined.validate c).settle))
      ∧ (∀ kind, exec (.sendFragmentRecord r (.other kind)) s = s.become
          (Part.settle { s.afterCopy (.send r) with sf := s.sf.completed c .badRecord }))
      ∧ ∀ h, exec (.sendHeadRecord r h) s = s.become
          (Part.settle { s.afterCopy (.send r) with sf := s.sf.completed c .badRecord }))

/-- The validation of a context (R98): its checks in their order, and the parcel count of one that passes. -/
def Obligations.ContextValidation : Prop :=
  ∀ (p : Part) (c : Fin 32),
    let x := p.context c
    let fails (outcome : Status) : Prop := p.validate c = { p with sf := p.sf.completed c outcome }
    let countOk := 1 ≤ x.fragmentCount ∧ x.fragmentCount ≤ 16 ∧ ∀ f ∈ x.fragments, 1 ≤ f.length
    let sumOk := (x.fragments.map Fragment.length).sum = x.totalLength
    (¬countOk → fails .badRecord)
    ∧ (countOk → ¬sumOk → fails .lengthMismatch)
    ∧ (countOk → sumOk → 64 ≤ x.stream → fails .streamNotOpen)
    ∧ ∀ i : Fin 64, countOk → sumOk → x.stream = i.val →
        ((p.stream i).state ≠ .opened → fails .streamNotOpen)
        ∧ ((p.stream i).state = .opened → (p.stream i).sendRing.val ≠ c.val / 8 → fails .wrongRing)
        ∧ ((p.stream i).state = .opened → (p.stream i).sendRing.val = c.val / 8 →
            (p.stream i).peerMaxMessage < x.totalLength → fails .tooLong)
        ∧ ((p.stream i).state = .opened → (p.stream i).sendRing.val = c.val / 8 →
            x.totalLength ≤ (p.stream i).peerMaxMessage → 1 ≤ p.lk.payloadSize →
            ∃ n, x.totalLength ≤ n * p.lk.payloadSize ∧ n * p.lk.payloadSize < x.totalLength + p.lk.payloadSize
              ∧ p.validate c =
                { p with
                  sf := { p.sf with contexts := p.sf.contexts.set c { x with state := .ready, parcelCount := n } }
                  streams := p.streams.set i
                    { p.stream i with sendLine := (p.stream i).sendLine ++ [c] } })

/-- LANDING_RECORD (R125, R126): a length that is accepted joins the cache and closes the episode, and a holder's
unplaced bytes are placed at once; any other is rejected with a completion. -/
def Obligations.LandingRecordEffect : Prop :=
  ∀ (s : State) (r : Fin 8) (address : Addr) (length : Nat), s.ReadInFlight (.landing r) →
    let position := (s.consumer (.landing r)).position
    let ring := s.landRing r
    let accepted := 256 ≤ length ∧ length ≤ 65536 ∧ length % 64 = 0
    let cached : Part :=
      { s.afterCopy (.landing r) with
        dl := { s.dl with
          rings := s.dl.rings.set r
            { ring with cache := ring.cache ++ [.usable position address length], episode := false } } }
    (accepted → (∀ l, ring.landing = some l → l.unplaced = []) →
      exec (.landingRecord r address length) s = s.become (cached.refreshRing r).settle)
    ∧ (accepted → ∀ l, ring.landing = some l → l.unplaced ≠ [] →
        exec (.landingRecord r address length) s = s.become ((cached.place r).refreshRing r).settle)
    ∧ (¬accepted → exec (.landingRecord r address length) s = s.become
        (Part.settle { s.afterCopy (.landing r) with dl := { s.dl with
          rings := s.dl.rings.set r { ring with cache := ring.cache ++ [.rejected position] }
          line := s.dl.line ++ [.rejected r position length] } }))

/-! ## Completions -/

/-- How CQ takes a producer's completion and releases the producer (R105, R144, R155, R166): straight into the ring
if nothing waits ahead of it, and onto the pending list otherwise. A message completion that CQ takes releases DL
(R130, R139, R142, R144): the ring no longer waits, the holder's claim goes, a WITHDRAW marker that waited for it is
processed, and the stream may leave, ask again, or pass the claim. -/
def Obligations.CompletionsTaken : Prop :=
  (∀ p : Part,
      let straight := p.MayWrite ∧ p.cq.list = [] ∧ p.anyFlag = false
      (∀ command tag status, p.cm.command = some ⟨command, tag, .offered status⟩ →
        let record : Record := .command tag (commandCode command) status
        (straight → p.take .cm = { p.writeBegun record with cm := { p.cm with command := none } })
        ∧ (¬straight → p.take .cm =
            { p with cq := { p.cq with list := p.cq.list ++ [record] }, cm := { p.cm with command := none } }))
      ∧ (∀ c rest outcome, p.sf.line = c :: rest → (p.context c).outcome = some outcome →
          let x := p.context c
          let record : Record := .send (c.val / 8) x.headIndex x.tag outcome x.totalLength
          let freed : SendFetcher :=
            { contexts := p.sf.contexts.set c {}
              fetchOrder := p.sf.fetchOrder.set (contextRing c)
                ((p.sf.fetchOrder.get (contextRing c)).filter fun y => decide (y ≠ c))
              line := rest }
          (straight → p.take .sf = { p.writeBegun record with sf := freed })
          ∧ (¬straight → p.take .sf =
              { p with cq := { p.cq with list := p.cq.list ++ [record] }, sf := freed }))
      ∧ (∀ r slot length rest, p.dl.line = .rejected r slot length :: rest →
          let record : Record := .landing r slot length
          let freed : Delivery :=
            { p.dl with
              line := rest
              rings := p.dl.rings.set r
                { p.landRing r with cache := (p.landRing r).cache.erase (.rejected slot) } }
          (straight → p.take .dl = { p.writeBegun record with dl := freed })
          ∧ (¬straight → p.take .dl =
              { p with cq := { p.cq with list := p.cq.list ++ [record] }, dl := freed }))
      ∧ (∀ r m rest, p.dl.line = .message r m :: rest →
          let record : Record := .message r m
          let popped : Delivery := { p.dl with line := rest }
          (straight → p.take .dl = Part.messageTaken { p.writeBegun record with dl := popped } r m)
          ∧ (¬straight → p.take .dl =
              Part.messageTaken
                { p with cq := { p.cq with list := p.cq.list ++ [record] }, dl := popped } r m)))
  ∧ (∀ (p : Part) (r : Fin 8) (m : MessageCompletion),
      let i := m.stream
      let e := p.stream i
      let freed (holder : Option (Fin 64)) : Delivery :=
        { p.dl with rings := p.dl.rings.set r { p.landRing r with waiting := none, holder := holder } }
      ((p.landRing r).holder = some i →
        let mode := if e.state = .closing ∨ (e.state = .winding ∧ e.closeWaiting = true) then Mode.idle
          else e.reassembly.mode
        let marker := if m.status = .peerClosed ∧ e.state = .winding then true else e.markerProcessed
        p.messageTaken r m =
          (((Part.passClaim { p with
              dl := freed none
              streams := p.streams.set i
                { e with reassembly := { e.reassembly with mode := mode }, markerProcessed := marker } } r).exitTest
            i).askClaim i).refreshRing r)
      ∧ ((p.landRing r).holder ≠ some i →
          p.messageTaken r m =
            (Part.passClaim { p with dl := freed (p.landRing r).holder } r).refreshRing r))

/-- CQ takes the completions that are offered, one after another, while it can take one (R155): with one producer that
offers it takes that producer's, and with several one of theirs, which the free value chooses (log entry 7). After that
no completion waits that it could take (R155, R157): nothing is offered, or the list is full and nothing can go straight
into the ring. While the part is not RUNNING CQ takes none. -/
def Obligations.OffersAreTaken : Prop :=
  (∀ p : Part, p.hi.deviceState = .running →
    let room := (p.MayWrite ∧ p.cq.list = [] ∧ p.anyFlag = false) ∨ p.cq.list.length < 32
    (∀ w, room → p.offer? w ≠ none → (∀ v, p.offer? v ≠ none → v = w) → p.settle = (p.take w).settle)
    ∧ (room → (∃ v w, v ≠ w ∧ p.offer? v ≠ none ∧ p.offer? w ≠ none) →
        ∃ w, p.offer? w ≠ none ∧ p.settle = (Part.take { p with choice := p.choice + 1 } w).settle)
    ∧ (¬room → p.settle = p)
    ∧ (p.settle.offering = []
        ∨ (32 ≤ p.settle.cq.list.length
          ∧ (p.settle.cq.list ≠ [] ∨ p.settle.anyFlag = true ∨ ¬p.settle.MayWrite))))
  ∧ (∀ p : Part, p.offering = [] → p.settle = p)
  ∧ ∀ p : Part, p.hi.deviceState ≠ .running → p.settle = p

/-- COMPLETION_WRITE_BEGIN in the posting order (R43, R147, R153, R154): the first waiting record is written, and an
event flag is cleared by its owner as its record is built. The place freed on the pending list goes to the first
waiting producer after the producer turn, in the cycle CM, SF, DL, CM, and the turn to that producer (R157). -/
def Obligations.PostingOrder : Prop :=
  (∀ s : State,
      (¬s.MayWrite → exec .completionWriteBegin s = s.become s.toPart)
      ∧ (s.MayWrite → s.lk.eventFlag = true →
          exec .completionWriteBegin s = s.become
            (Part.writeBegun { s.toPart with lk := { s.lk with eventFlag := false, transitions := 0 } }
              (if s.lk.state = .up then
                .linkUp s.lk.latestCause s.lk.transitions s.lk.payloadSize s.lk.window s.lk.peerLabel
              else .linkDown s.lk.latestCause s.lk.transitions s.lk.payloadSize s.lk.window s.lk.peerLabel)))
      ∧ (s.MayWrite → s.lk.eventFlag = false → s.lk.protocolFlag = true →
          exec .completionWriteBegin s = s.become
            (Part.writeBegun
              { s.toPart with lk := { s.lk with
                  protocolFlag := false, protocolCause := .none, protocolCount := 0 } }
              (.linkProtocolError s.lk.protocolCause s.lk.protocolCount)))
      ∧ (s.MayWrite → s.lk.eventFlag = false → s.lk.protocolFlag = false →
          (∀ i : Fin 64, (s.stream i).anyFlag = true → (∀ j, j < i → (s.stream j).anyFlag = false) →
            let e := s.stream i
            let put (e' : StreamEntry) : Part := { s.toPart with streams := s.streams.set i e' }
            (e.endedFlag = true → exec .completionWriteBegin s = s.become
              ((put { e with endedFlag := false }).writeBegun (.streamEnded i e.state)))
            ∧ (e.endedFlag = false → e.offeredFlag = true → exec .completionWriteBegin s = s.become
                ((put { e with offeredFlag := false }).writeBegun (.streamOffered i e.state e.peerMaxMessage)))
            ∧ (e.endedFlag = false → e.offeredFlag = false → exec .completionWriteBegin s = s.become
                ((put { e with protocolFlag := false, protocolCause := .none, protocolCount := 0 }).writeBegun
                  (.streamProtocolError i e.protocolCause e.protocolCount))))
          ∧ ((∀ i : Fin 64, (s.stream i).anyFlag = false) →
              (∀ r : Fin 8, (s.landRing r).emptyFlag = true → (∀ q, q < r → (s.landRing q).emptyFlag = false) →
                exec .completionWriteBegin s = s.become
                  (Part.writeBegun
                    { s.toPart with dl := { s.dl with
                        rings := s.dl.rings.set r { s.landRing r with emptyFlag := false } } }
                    (.landingEmpty r)))
              ∧ ((∀ r : Fin 8, (s.landRing r).emptyFlag = false) →
                  (∀ record rest, s.cq.list = record :: rest →
                    exec .completionWriteBegin s = s.become
                      (Part.grantPlace
                        (Part.writeBegun { s.toPart with cq := { s.cq with list := rest } } record)).settle)
                  ∧ (s.cq.list = [] → exec .completionWriteBegin s = s.become s.settle)))))
  ∧ (∀ p : Part,
      let next : Producer → Producer := fun w => match w with | .cm => .sf | .sf => .dl | .dl => .cm
      let waits (w : Producer) : Prop := p.offer? w ≠ none
      let given (w : Producer) : Part := Part.take { p with cq := { p.cq with turn := w } } w
      let t := p.cq.turn
      (waits (next t) → p.grantPlace = given (next t))
      ∧ (¬waits (next t) → waits (next (next t)) → p.grantPlace = given (next (next t)))
      ∧ (¬waits (next t) → ¬waits (next (next t)) → waits t → p.grantPlace = given t)
      ∧ ((∀ w, ¬waits w) → p.grantPlace = p))

/-- COMPLETION_WRITE_END in success and INTERRUPT_HOLDOFF_EXPIRY (R147, R159, R160, R161): the record is counted, and
at the threshold, or as the holdoff expires, the records are announced. -/
def Obligations.InterruptModeration : Prop :=
  ∀ s : State,
    (∀ a, s.access? .completionWrite = some a → s.hi.deviceState = .running →
      let ended : HostInterface :=
        { s.hi with accesses := s.hi.accesses.filter fun x => decide (x.kind ≠ .completionWrite) }
      let count := s.cq.unannounced + 1
      (s.hi.config.threshold ≤ count ∨ (count = 1 ∧ s.hi.config.holdoff = 0) →
        ∃ n ≤ 1, exec (.completionWriteEnd true) s = s.become
          { s.toPart with
            hi := { ended with event := s.hi.event ||| 1, interrupts := s.hi.interrupts + n }
            cq := { s.cq with writer := .idle, unannounced := 0, holdoffTimer := .idle } })
      ∧ (count < s.hi.config.threshold → count = 1 → s.hi.config.holdoff ≠ 0 →
          exec (.completionWriteEnd true) s = s.become
            { s.toPart with
              hi := ended
              cq := { s.cq with
                writer := .idle, unannounced := 1, holdoffTimer := .running s.hi.config.holdoff } })
      ∧ (count < s.hi.config.threshold → count ≠ 1 →
          exec (.completionWriteEnd true) s = s.become
            { s.toPart with hi := ended, cq := { s.cq with writer := .idle, unannounced := count } }))
    ∧ (∀ k, s.cq.holdoffTimer = .running k →
        ∃ n ≤ 1, exec .interruptHoldoffExpiry s = s.become
          { s.toPart with
            hi := { s.hi with event := s.hi.event ||| 1, interrupts := s.hi.interrupts + n }
            cq := { s.cq with unannounced := 0, holdoffTimer := .idle } })

/-! ## Commands -/

/-- LINK_START (R33, R34, R167) and LINK_STOP (R40, R168), by the link state. The teardown that a LINK_STOP begins in UP is
applied at once with the framer free, as TEARDOWN_APPLY applies one, and waits for the transmission in progress otherwise
(R41). The leaving of HELLO that waits so is held in the model's field helloExit (log entry 6). -/
def Obligations.LinkCommands : Prop :=
  ∀ (s : State) (tag : BitVec 32), s.ReadInFlight .command →
    (∀ code window : Nat,
      let done (status : Status) : Part := s.commandTaken tag (.linkStart code window) (.offered status)
      let valid := code ≤ 3 ∧ 16 ≤ window ∧ window ≤ 256
      let started : Link :=
        { s.lk with offeredCode := code, offeredWindow := window, helloTimer := .idle, helloExit := none }
      (s.lk.state ≠ .offline → exec (.linkStart tag code window) s = s.become (done .badState).settle)
      ∧ (s.lk.state = .offline → ¬valid → exec (.linkStart tag code window) s = s.become (done .badParam).settle)
      ∧ (s.lk.state = .offline → valid → s.lk.signalPresent = true →
          exec (.linkStart tag code window) s = s.become
            (Part.settle { done .ok with lk := { started with
              state := .hello, localEpoch := if s.lk.localEpoch = 255 then 1 else s.lk.localEpoch + 1
              peerEpoch := 0, helloDue := .periodic, helloTimer := .running s.cm.timers.helloInterval } }))
      ∧ (s.lk.state = .offline → valid → s.lk.signalPresent = false →
          exec (.linkStart tag code window) s = s.become
            (Part.settle { done .ok with lk := { started with state := .awaitSignal, helloDue := .none } })))
    ∧ (let taken (phase : Phase) : Part := s.commandTaken tag .linkStop phase
       (s.lk.state = .offline → exec (.linkStop tag) s = s.become (taken (.offered .badState)).settle)
       ∧ (s.lk.state = .awaitSignal ∨ s.lk.state = .holdoff ∨ (s.lk.state = .hello ∧ s.lk.transmission = none) →
           exec (.linkStop tag) s = s.become
             (Part.settle { taken (.offered .ok) with lk := { s.lk with
               state := .offline, helloDue := .none, helloTimer := .idle, holdoffTimer := .idle
               helloExit := none } }))
       ∧ (s.lk.state = .hello → s.lk.transmission ≠ none →
           exec (.linkStop tag) s = s.become
             (Part.settle { taken .acting with lk := { s.lk with
               helloTimer := .idle, helloDue := .none, helloExit := some true } }))
       ∧ (s.lk.state = .up → s.lk.teardown = none →
           let begun : Part := { taken .acting with lk := { s.lk with teardown := some ⟨.stopped, true, none⟩ } }
           (s.lk.transmission = none →
             exec (.linkStop tag) s = exec .teardownApply { s with toPart := begun })
           ∧ (s.lk.transmission ≠ none → exec (.linkStop tag) s = s.become begun.settle))
       ∧ (s.lk.state = .up → ∀ t, s.lk.teardown = some t →
           exec (.linkStop tag) s = s.become
             (Part.settle { taken .acting with lk := { s.lk with
               teardown := some { t with stopRequested := true } } })))

/-- STREAM_OPEN (R4, R5, R72, R169, R170): its checks in order, and the opening of the stream with its reservation
and its first GRANT, which the queue takes by R24. -/
def Obligations.StreamOpenEffect : Prop :=
  ∀ (s : State) (tag : BitVec 32) (stream sendRing landingRing allotment batch size : Nat), s.ReadInFlight .command →
    let command : Command := .streamOpen stream sendRing landingRing allotment batch size
    let row : Instr := .streamOpen tag stream sendRing landingRing allotment batch size
    let done (status : Status) : Part := s.commandTaken tag command (.offered status)
    let listens := s.lk.state = .up ∧ s.lk.teardown = none
    let valid := stream ≤ 63 ∧ sendRing ≤ 3 ∧ landingRing ≤ 7 ∧ 1 ≤ allotment ∧ allotment ≤ 128 ∧ 64 ≤ size
      ∧ size ≤ 1048576 ∧ 1 ≤ batch ∧ batch ≤ allotment
    (¬listens → exec row s = s.become (done .linkNotUp).settle)
    ∧ (listens → ¬valid → exec row s = s.become (done .badParam).settle)
    ∧ ∀ (i : Fin 64) (a : Fin 4) (r : Fin 8), listens → valid → stream = i.val → sendRing = a.val →
        landingRing = r.val →
        let e := s.stream i
        (e.state ≠ .closed → e.state ≠ .offered → exec row s = s.become (done .badState).settle)
        ∧ (e.state = .closed ∨ e.state = .offered → 512 < s.ib.reservedTotal + allotment →
            exec row s = s.become (done .noSpace).settle)
        ∧ (e.state = .closed ∨ e.state = .offered → s.ib.reservedTotal + allotment ≤ 512 →
            let opened (control : List ControlEntry) : Part :=
              { done .ok with
                streams := s.streams.set i
                  { e with
                    state := if e.state = .offered then .opened else .localOpen
                    sendRing := a, landingRing := r, maxInbound := size, allotment := allotment
                    returnBatch := batch, occupancy := 0, pendingReturns := 0 }
                ib := { s.ib with reservedTotal := s.ib.reservedTotal + allotment }
                control := control }
            (s.grantWaits i = false → s.withdrawWaits i = false →
              exec row s = s.become (opened (s.control ++ [.grant i allotment allotment size])).settle)
            ∧ (s.grantWaits i = false → s.withdrawWaits i = true →
                exec row s = s.become (opened s.control).settle)
            ∧ (s.grantWaits i = true →
                exec row s = s.become
                  (opened (s.control.map fun x =>
                    match x with
                    | .grant j a c m => if j = i then .grant j a (c + allotment) m else .grant j a c m
                    | other => other)).settle))

/-- STREAM_CLOSE by the stream's state (R13 to R16, R80, R102, R142, R171, R172). What DL does for a stream that is
closed (R131, R142): the stream leaves the claim queue, and by what it holds its message is cancelled, its landing is
cut short, its claim passes on, or its outcome stands; a landing cut short with no write in flight ends CANCELLED at once.
No second WITHDRAW joins a waiting one (log entry 10), the close of a DISRUPTED stream whose reply waits clears withdraw
sequenced (log entry 11), and a message that ends CANCELLED keeps its mode until its completion is taken (log entry 14):
these are the model's readings. The deciding of contexts and the drop of a staged parcel are WithdrawAndCutArrivals', and
the completion of the waiting command is StreamExits'. -/
def Obligations.StreamCloseEffect : Prop :=
  (∀ (s : State) (tag : BitVec 32), s.ReadInFlight .command →
      (∀ n, 64 ≤ n → exec (.streamClose tag n) s = s.become
        (s.commandTaken tag (.streamClose n) (.offered .badParam)).settle)
      ∧ ∀ i : Fin 64,
          let e := s.stream i
          let taken (phase : Phase) : Part := s.commandTaken tag (.streamClose i.val) phase
          let forgotten : StreamEntry :=
            { offeredFlag := e.offeredFlag, endedFlag := e.endedFlag, protocolFlag := e.protocolFlag
              protocolCause := e.protocolCause, protocolCount := e.protocolCount }
          let released : InboundStore := { s.ib with reservedTotal := s.ib.reservedTotal - e.allotment }
          let emptied : InboundStore :=
            { released with
              freeCount := s.ib.freeCount + dataCount (s.queue i), queues := s.ib.queues.set i [] }
          let withdrawn : List ControlEntry :=
            (s.control.filter fun x => !(x.isGrantOf i || x.isCutOf i))
              ++ if s.withdrawWaits i then [] else [.withdraw i]
          let closing : StreamEntry :=
            { e with state := .closing, closeWaiting := true, peerAllotment := 0, peerMaxMessage := 0, credits := 0 }
          let cancelled := e.sendLine.filter fun c =>
            decide ((s.context c).state = .ready) || decide ((s.context c).state = .sending)
          let answer (q : Part) : Prop := exec (.streamClose tag i.val) s = s.become q.settle
          (e.state = .closed ∨ e.state = .closing → answer (taken (.offered .badState)))
          ∧ (e.state = .localOpen → s.grantWaits i = true →
              answer { taken (.offered .ok) with
                streams := s.streams.set i forgotten, ib := released
                control := s.control.filter fun x => !x.isGrantOf i })
          ∧ (e.state = .opened ∨ (e.state = .localOpen ∧ s.grantWaits i = false) →
              let begun : Part :=
                { taken .acting with
                  streams := s.streams.set i
                    { closing with occupancy := 0, allotment := 0, returnBatch := 0, pendingReturns := 0 }
                  ib := emptied
                  control := withdrawn }
              answer (((begun.decideAll cancelled .cancelled).dropStagedOfStream i).closeDelivery i))
          ∧ (e.state = .offered →
              answer { taken .acting with streams := s.streams.set i closing, control := withdrawn })
          ∧ (e.state = .winding →
              answer (Part.closeDelivery
                { taken .acting with
                  streams := s.streams.set i
                    { e with
                      closeWaiting := true, markerProcessed := true
                      occupancy := 0, allotment := 0, returnBatch := 0, pendingReturns := 0 }
                  ib := emptied } i))
          ∧ (e.state = .disrupted → s.withdrawWaits i = true →
              answer { taken .acting with
                streams := s.streams.set i
                  { e with
                    state := .closing, peerWithdrawSeen := true, closeWaiting := true, withdrawSequenced := false } })
          ∧ (e.state = .disrupted → s.withdrawWaits i = false → e.offer = none →
              answer { taken (.offered .ok) with streams := s.streams.set i forgotten })
          ∧ (e.state = .disrupted → s.withdrawWaits i = false → ∀ o, e.offer = some o →
              answer { taken (.offered .ok) with
                streams := s.streams.set i
                  { forgotten with
                    state := .offered, peerAllotment := o.allotment, credits := o.credits
                    peerMaxMessage := o.maxMessage, offeredFlag := true } }))
  ∧ (∀ (p : Part) (i : Fin 64),
      let e := p.stream i
      let r := e.landingRing
      let ring := p.landRing r
      let left : LandingRing := { ring with claimQueue := ring.claimQueue.filter fun j => decide (j ≠ i) }
      let after (q : Part) : Prop := p.closeDelivery i = (q.exitTest i).refreshRing r
      (ring.holder ≠ some i ∨ ring.waiting ≠ none → after (p.withRing r left))
      ∧ (ring.holder = some i → ring.waiting = none →
          (∀ l, ring.landing = some l → l.cause = .none → l.writes ≠ [] →
            after (p.withRing r { left with landing := some { l with cause := .cancelled, unplaced := [] } }))
          ∧ (∀ l, ring.landing = some l → l.cause = .none → l.writes = [] → l.kept = none →
              after (((p.withRing r { left with landing := none }).messageEnded l.stream .cancelled
                (p.stream l.stream).reassembly.mode).refreshRing r))
          ∧ (∀ l, ring.landing = some l → l.cause ≠ .none → after (p.withRing r left))
          ∧ (ring.landing = none → e.reassembly.mode = .assembling →
              after ((p.withRing r left).messageEnded i .cancelled .assembling))
          ∧ (ring.landing = none → e.reassembly.mode ≠ .assembling →
              after (Part.passClaim
                ((p.withRing r { left with holder := none }).withStream i
                  { e with reassembly := { e.reassembly with mode := .idle } }) r))))

/-- STREAM_QUERY and LINK_QUERY (R173 to R175): a bad stream number or address is refused, and otherwise the snapshot
is in flight to the host as one write of 64 bytes. SNAPSHOT_WRITE_END (R44, R173, R175): the query completes, and a
clearing LINK_QUERY whose write succeeded takes what it copied off the counters. The two snapshots field by field (R174,
R175, R194): every field at its offset holds its item as the field's width holds it, and what is reserved holds 0. A
READING slot holds its parcel, wanted or dropped (R107). -/
def Obligations.QueryEffect : Prop :=
  (∀ (p : Part) (i : Fin 64),
      let b := p.streamSnapshot i
      let e := p.stream i
      let ring := p.landRing e.landingRing
      let bit (n : Nat) : Bool := fieldAt b 0x14 1 / 2 ^ n % 2 == 1
      b.length = 64
      ∧ fieldAt b 0x00 1 = i.val ∧ fieldAt b 0x01 1 = e.state.code ∧ fieldAt b 0x02 1 = e.sendRing.val
      ∧ fieldAt b 0x03 1 = e.landingRing.val ∧ fieldAt b 0x04 4 = e.maxInbound % 2 ^ 32
      ∧ fieldAt b 0x08 1 = e.peerAllotment % 256
      ∧ (e.offer = none →
          fieldAt b 0x09 1 = 0 ∧ fieldAt b 0x0A 1 = 0 ∧ fieldAt b 0x0B 1 = 0 ∧ fieldAt b 0x10 4 = 0)
      ∧ (∀ o, e.offer = some o →
          fieldAt b 0x09 1 = 1 ∧ fieldAt b 0x0A 1 = o.allotment % 256 ∧ fieldAt b 0x0B 1 = o.credits % 256
            ∧ fieldAt b 0x10 4 = o.maxMessage % 2 ^ 32)
      ∧ fieldAt b 0x0C 4 = e.peerMaxMessage % 2 ^ 32
      ∧ bit 0 = e.withdrawSequenced ∧ bit 1 = e.peerWithdrawSeen ∧ bit 2 = e.markerProcessed ∧ bit 3 = e.closeWaiting
      ∧ bit 4 = e.offeredFlag ∧ bit 5 = e.endedFlag ∧ bit 6 = e.protocolFlag ∧ bit 7 = false
      ∧ fieldAt b 0x15 1 = e.protocolCause.code ∧ fieldAt b 0x16 1 = e.protocolCount % 256 ∧ fieldAt b 0x17 1 = 0
      ∧ fieldAt b 0x18 1 = e.allotment % 256 ∧ fieldAt b 0x19 1 = e.returnBatch % 256
      ∧ fieldAt b 0x1A 1 = e.occupancy % 256 ∧ fieldAt b 0x1B 1 = e.pendingReturns % 256
      ∧ fieldAt b 0x1C 1 = (p.queue i).length % 256 ∧ fieldAt b 0x1D 1 = e.credits % 256
      ∧ ((∃ wanted reads d, p.tx.staging = .reading d wanted reads ∧ d.stream = i
            ∧ fieldAt b 0x1E 1 = 1 ∧ fieldAt b 0x20 2 = d.index % 65536)
          ∨ (∃ d payload, p.tx.staging = .ready d payload ∧ d.stream = i
            ∧ fieldAt b 0x1E 1 = 1 ∧ fieldAt b 0x20 2 = d.index % 65536)
          ∨ ((∀ d wanted reads, p.tx.staging = .reading d wanted reads → d.stream ≠ i)
            ∧ (∀ d payload, p.tx.staging = .ready d payload → d.stream ≠ i)
            ∧ fieldAt b 0x1E 1 = 0 ∧ fieldAt b 0x20 2 = 0))
      ∧ fieldAt b 0x1F 1 = e.sendLine.length % 256 ∧ fieldAt b 0x22 1 = e.reassembly.mode.code
      ∧ fieldAt b 0x23 1 =
          (if ring.holder = some i then 1 else if i ∈ ring.claimQueue then 2 else 0)
      ∧ fieldAt b 0x24 2 = e.reassembly.expected % 65536 ∧ fieldAt b 0x26 2 = 0
      ∧ fieldAt b 0x28 4 = e.reassembly.bytesSoFar % 2 ^ 32 ∧ fieldAt b 0x2C 20 = 0)
  ∧ (∀ p : Part,
      let b := p.linkSnapshot
      let l := p.lk
      let n := l.counters
      b.length = 64
      ∧ fieldAt b 0x00 1 = l.state.code ∧ fieldAt b 0x01 1 = l.localEpoch % 256 ∧ fieldAt b 0x02 1 = l.peerEpoch % 256
      ∧ fieldAt b 0x03 1 = 0 ∧ fieldAt b 0x04 4 = l.peerLabel.toNat ∧ fieldAt b 0x08 2 = l.payloadSize % 65536
      ∧ fieldAt b 0x0A 2 = l.window % 65536 ∧ fieldAt b 0x0C 2 = p.sq.next.toNat
      ∧ fieldAt b 0x0E 2 = p.sq.replay.length % 65536 ∧ fieldAt b 0x10 2 = p.sq.expected.toNat
      ∧ fieldAt b 0x12 2 = p.ib.freeCount % 65536 ∧ fieldAt b 0x14 2 = p.ib.reservedTotal % 65536
      ∧ fieldAt b 0x16 1 = p.cq.list.length % 256 ∧ fieldAt b 0x17 1 = 0 ∧ fieldAt b 0x18 2 = p.cq.free % 65536
      ∧ fieldAt b 0x1A 2 = p.cq.serial % 65536 ∧ fieldAt b 0x1C 4 = n.parcelsSent % 2 ^ 32
      ∧ fieldAt b 0x20 4 = n.parcelsReplayed % 2 ^ 32 ∧ fieldAt b 0x24 4 = n.retriesSent % 2 ^ 32
      ∧ fieldAt b 0x28 4 = n.retriesReceived % 2 ^ 32 ∧ fieldAt b 0x2C 4 = n.badParcels % 2 ^ 32
      ∧ fieldAt b 0x30 4 = n.duplicates % 2 ^ 32 ∧ fieldAt b 0x34 4 = n.staleAcks % 2 ^ 32
      ∧ fieldAt b 0x38 4 = n.protocolErrors % 2 ^ 32 ∧ fieldAt b 0x3C 4 = n.linkFaults % 2 ^ 32)
  ∧ (∀ (s : State) (tag : BitVec 32) (address : Addr), s.ReadInFlight .command →
      let writing (command : Command) (bytes : List Byte) : Part :=
        let p := s.commandTaken tag command (.writing s.lk.counters)
        { p with hi := { p.hi with accesses := p.hi.accesses ++ [⟨.snapshotWrite, address, 64, bytes⟩] } }
      (∀ n : Nat, 64 ≤ n ∨ address.toNat % 64 ≠ 0 → exec (.streamQuery tag n address) s = s.become
        (s.commandTaken tag (.streamQuery n address) (.offered .badParam)).settle)
      ∧ (∀ i : Fin 64, address.toNat % 64 = 0 → exec (.streamQuery tag i.val address) s = s.become
          (writing (.streamQuery i.val address) (s.streamSnapshot i)).settle)
      ∧ (∀ clear, address.toNat % 64 ≠ 0 → exec (.linkQuery tag clear address) s = s.become
          (s.commandTaken tag (.linkQuery clear address) (.offered .badParam)).settle)
      ∧ ∀ clear, address.toNat % 64 = 0 → exec (.linkQuery tag clear address) s = s.become
          (writing (.linkQuery clear address) s.linkSnapshot).settle)
  ∧ (∀ (s : State) (a : Access) (command : Command) (tag : BitVec 32) (copied : Counters),
      s.hi.deviceState = .running → s.access? .snapshotWrite = some a →
      s.cm.command = some ⟨command, tag, .writing copied⟩ →
      let ended (status : Status) : Part :=
        { s.toPart with
          hi := { s.hi with accesses := s.hi.accesses.filter fun x => decide (x.kind ≠ .snapshotWrite) }
          cm := { s.cm with command := some ⟨command, tag, .offered status⟩ } }
      exec (.snapshotWriteEnd false) s = s.become (ended .hostWriteFault).settle
      ∧ ((∀ address, command ≠ .linkQuery true address) →
          exec (.snapshotWriteEnd true) s = s.become (ended .ok).settle)
      ∧ ∀ address, command = .linkQuery true address →
          exec (.snapshotWriteEnd true) s = s.become
            (Part.settle { ended .ok with lk := { s.lk with
              counters :=
                { parcelsSent := s.lk.counters.parcelsSent - copied.parcelsSent
                  parcelsReplayed := s.lk.counters.parcelsReplayed - copied.parcelsReplayed
                  retriesSent := s.lk.counters.retriesSent - copied.retriesSent
                  retriesReceived := s.lk.counters.retriesReceived - copied.retriesReceived
                  badParcels := s.lk.counters.badParcels - copied.badParcels
                  duplicates := s.lk.counters.duplicates - copied.duplicates
                  staleAcks := s.lk.counters.staleAcks - copied.staleAcks
                  protocolErrors := s.lk.counters.protocolErrors - copied.protocolErrors
                  linkFaults := s.lk.counters.linkFaults - copied.linkFaults } } }))

/-- SET_TIMERS (R176, R177) and a command code that names no command (R165). -/
def Obligations.TimersAndUnknownCodes : Prop :=
  ∀ (s : State) (tag : BitVec 32), s.ReadInFlight .command →
    (∀ ack limit replay hello holdoff gap : Nat,
      let row : Instr := .setTimers tag ack limit replay hello holdoff gap
      let done (status : Status) : Part :=
        s.commandTaken tag (.setTimers ack limit replay hello holdoff gap) (.offered status)
      let valid := (1 ≤ ack ∧ ack ≤ 255) ∧ (20 ≤ replay ∧ replay ≤ 20000) ∧ (1 ≤ limit ∧ limit ≤ 15)
        ∧ (50 ≤ hello ∧ hello ≤ 50000) ∧ (1 ≤ holdoff ∧ holdoff ≤ 1000) ∧ (1 ≤ gap ∧ gap ≤ 65535)
      (s.lk.state ≠ .offline → exec row s = s.become (done .badState).settle)
      ∧ (s.lk.state = .offline → ¬valid → exec row s = s.become (done .badParam).settle)
      ∧ (s.lk.state = .offline → valid →
          exec row s = s.become
            (Part.settle { done .ok with cm := { (done .ok).cm with
              timers := ⟨ack, replay, limit, hello, holdoff, gap⟩ } })))
    ∧ ∀ code, exec (.unknownCommand tag code) s = s.become
        (s.commandTaken tag (.unknown code) (.offered .unknownCommand)).settle

/-! ## Delivery -/

/-- Asking for, passing and losing a claim (R129, R130), and what follows a change at a ring: its gap timer runs
while its three conditions hold (R140) and no completion of the ring waits for CQ, and a need that finds the empty episode
closed opens it (R128). The fourth condition is needed because a message that a close has ended CANCELLED keeps the mode
ASSEMBLING until its completion is taken, which is the model's reading (log entry 14). -/
def Obligations.ClaimsAndNeeds : Prop :=
  (∀ (p : Part) (i : Fin 64),
    let e := p.stream i
    let r := e.landingRing
    let ring := p.landRing r
    let asks := (∃ d rest, p.queue i = .data d :: rest ∧ d.index = 0) ∧ e.reassembly.mode ≠ .assembling
      ∧ ¬p.Busy i ∧ ring.holder ≠ some i ∧ i ∉ ring.claimQueue
    (asks → ring.Free → p.askClaim i = p.withRing r { ring with holder := some i })
    ∧ (asks → ¬ring.Free → p.askClaim i = p.withRing r { ring with claimQueue := ring.claimQueue ++ [i] })
    ∧ (¬asks → p.askClaim i = p))
  ∧ ∀ (p : Part) (r : Fin 8),
      let ring := p.landRing r
      let waits := ∃ i, ring.holder = some i ∧ (p.stream i).reassembly.mode = .assembling ∧ ring.landing = none
        ∧ ring.waiting = none ∧ p.queue i = []
      let needs := ¬ring.BufferAvailable
        ∧ ∃ i, ring.holder = some i
            ∧ ((∃ l, ring.landing = some l ∧ l.unplaced ≠ [])
              ∨ (¬p.Busy i ∧ ∃ d rest, p.queue i = .data d :: rest ∧ p.WouldWrite i d))
      (∀ j rest, ring.Free → ring.claimQueue = j :: rest →
        p.passClaim r = p.withRing r { ring with holder := some j, claimQueue := rest })
      ∧ (¬ring.Free ∨ ring.claimQueue = [] → p.passClaim r = p)
      ∧ ∃ ring' : LandingRing, p.refreshRing r = p.withRing r ring'
          ∧ ring'.cache = ring.cache ∧ ring'.current = ring.current ∧ ring'.holder = ring.holder
          ∧ ring'.claimQueue = ring.claimQueue ∧ ring'.landing = ring.landing ∧ ring'.waiting = ring.waiting
          ∧ (waits → ring'.gapTimer =
              if ring.gapTimer = .idle then .running (100 * p.cm.timers.gapTimeout) else ring.gapTimer)
          ∧ (¬waits → ring'.gapTimer = .idle)
          ∧ (ring.episode = true → ring'.episode = true ∧ ring'.emptyFlag = ring.emptyFlag)
          ∧ (ring.episode = false → needs → ring'.episode = true ∧ ring'.emptyFlag = true)
          ∧ (ring.episode = false → ¬needs → ring'.episode = false ∧ ring'.emptyFlag = ring.emptyFlag)

/-- DELIVERY_TAKE serves the first deliverable stream after the rotation pointer (R132), by its head's kind (R133,
R134, R136 to R139), and takes nothing with nothing deliverable or while the part is not RUNNING (R132, R145). A DATA
head that DL takes leaves the queue and frees its slot (R78), and in OPEN its credit goes back: it is counted, and at
the return batch, or with the stream's last slot, the counted returns are asked for as one GRANT (R79), which the
queue merges or takes (R24). -/
def Obligations.DeliveryTakeEffect : Prop :=
  (∀ (s : State) (i : Fin 64), s.hi.deviceState = .running → s.Deliverable i →
      (∀ j, s.Deliverable j → (i - s.dl.pointer - 1).val ≤ (j - s.dl.pointer - 1).val) →
      let e := s.stream i
      let p : Part := { s.toPart with dl := { s.dl with pointer := i } }
      let answer (q : Part) : Prop :=
        exec .deliveryTake s = s.become (((q.askClaim i).refreshRing e.landingRing).settle)
      let asm := e.reassembly.mode = .assembling
      let mode (q : Part) (m : Mode) : Part :=
        q.withStream i { q.stream i with reassembly := { (q.stream i).reassembly with mode := m } }
      (∀ rest, s.queue i = .cutMarker :: rest →
        (asm → answer ((p.withQueue i rest).messageEnded i .cut .idle))
        ∧ (¬asm → answer (mode (p.withQueue i rest) .idle)))
      ∧ (∀ rest, s.queue i = .withdrawMarker :: rest →
          (asm → answer ((p.withQueue i rest).messageEnded i .peerClosed .idle))
          ∧ (¬asm → e.state ≠ .winding → answer (mode (p.withQueue i rest) .idle))
          ∧ (¬asm → e.state = .winding →
              answer (((p.withQueue i rest).withStream i
                { e with markerProcessed := true, reassembly := { e.reassembly with mode := .idle } }).exitTest i)))
      ∧ ∀ d rest, s.queue i = .data d :: rest →
          let taken := p.takeData i
          let x := taken.stream i
          let landed (q : Part) (room : Nat) : Part :=
            ((q.withRing e.landingRing
              { q.landRing e.landingRing with
                landing := some
                  ⟨i, d.payload.take room, d.last, decide (d.payload.length ≤ room), d.payload.take room, [], 0,
                    .none, none⟩ }).place e.landingRing)
          (asm → d.index = 0 → answer (p.messageEnded i .incomplete .idle))
          ∧ (asm → d.index ≠ 0 → d.index ≠ e.reassembly.expected →
              answer (taken.messageEnded i .incomplete .discarding))
          ∧ (asm → d.index ≠ 0 → d.index = e.reassembly.expected → e.maxInbound ≤ e.reassembly.bytesSoFar →
              answer (taken.messageEnded i .oversize .discarding))
          ∧ (asm → d.index ≠ 0 → d.index = e.reassembly.expected → e.reassembly.bytesSoFar < e.maxInbound →
              answer (landed
                (taken.withStream i { x with reassembly := { x.reassembly with expected := d.index + 1 } })
                (e.maxInbound - e.reassembly.bytesSoFar)))
          ∧ (¬asm → d.index ≠ 0 → answer (mode taken .discarding))
          ∧ (¬asm → d.index = 0 →
              answer (landed
                (taken.withStream i
                  { x with reassembly := { x.reassembly with
                      mode := .assembling, expected := 1, bytesSoFar := 0, mark := d.mark } })
                e.maxInbound)))
  ∧ (∀ s : State,
      (s.hi.deviceState ≠ .running → exec .deliveryTake s = s.become s.toPart)
      ∧ (s.hi.deviceState = .running → (∀ i, ¬s.Deliverable i) → exec .deliveryTake s = s.become s.settle))
  ∧ (∀ (p : Part) (i : Fin 64) (d : StoredData) (rest : List InboundEntry), p.queue i = .data d :: rest →
      let e := p.stream i
      let freed (pending : Nat) (control : List ControlEntry) : Part :=
        { p with
          ib := { p.ib with freeCount := p.ib.freeCount + 1, queues := p.ib.queues.set i rest }
          streams := p.streams.set i { e with occupancy := e.occupancy - 1, pendingReturns := pending }
          control := control }
      let due := e.returnBatch ≤ e.pendingReturns + 1 ∨ e.occupancy ≤ 1
      (e.state ≠ .opened → p.takeData i = freed e.pendingReturns p.control)
      ∧ (e.state = .opened → ¬due → p.takeData i = freed (e.pendingReturns + 1) p.control)
      ∧ (e.state = .opened → due → p.grantWaits i = true →
          p.takeData i = freed 0 (p.control.map fun x =>
            match x with
            | .grant j a c m => if j = i then .grant j a (c + (e.pendingReturns + 1)) m else .grant j a c m
            | other => other))
      ∧ (e.state = .opened → due → p.grantWaits i = false → p.withdrawWaits i = true →
          p.takeData i = freed 0 p.control)
      ∧ (e.state = .opened → due → p.grantWaits i = false → p.withdrawWaits i = false →
          p.takeData i = freed 0 (p.control ++ [.grant i e.allotment (e.pendingReturns + 1) e.maxInbound])))

/-- The placing of a landing's bytes (R127, R134): they go in order into the current buffer's remaining room and then
into the USABLE entries of the cache, oldest first, one host write to a buffer, at its address plus its bytes used,
modulo 2^64 (log entry 28). The last buffer used is the current one, the entries taken leave the cache, the message's
last slot follows them and its first slot is the first of them where there was no current buffer. Bytes are left only
where no buffer is available, and nothing else changes. -/
def Obligations.BytesPlaced : Prop :=
  ∀ (p : Part) (r : Fin 8) (l : Landing), (p.landRing r).landing = some l →
    let ring := p.landRing r
    let e := p.stream l.stream
    let opened := ring.current.toList.filter fun b => decide (b.used < b.length)
    let fills := fillBuffers (opened ++ ring.cache.filterMap CacheEntry.fresh?) l.unplaced
    let taken := fills.drop opened.length
    let writes : List Access :=
      (fills.filter fun f => decide (f.2 ≠ [])).mapIdx fun k f =>
        ⟨.landingWrite r (l.issued + k), f.1.address + BitVec.ofNat 64 f.1.used, f.2.length, f.2⟩
    let left := l.unplaced.drop (fills.map fun f => f.2.length).sum
    let current :=
      match fills.getLast? with
      | none => ring.current
      | some f => some { f.1 with used := f.1.used + f.2.length }
    let firstSlot :=
      match ring.current, taken.head? with
      | none, some f => f.1.slot
      | _, _ => e.reassembly.firstSlot
    let lastSlot :=
      match taken.getLast? with
      | none => e.reassembly.lastSlot
      | some f => f.1.slot
    let landing : Landing :=
      { l with
        unplaced := left, issued := l.issued + writes.length
        writes := l.writes ++ (List.range writes.length).map fun k => l.issued + k }
    let placed : LandingRing :=
      { ring with
        cache := Nat.repeat (fun cache => cache.eraseP CacheEntry.isUsable) taken.length ring.cache
        current := current, landing := some landing }
    let x : StreamEntry := { e with reassembly := { e.reassembly with firstSlot := firstSlot, lastSlot := lastSlot } }
    p.place r =
        { p with
          hi := { p.hi with accesses := p.hi.accesses ++ writes }
          dl := { p.dl with rings := p.dl.rings.set r placed }
          streams := p.streams.set l.stream x }
      ∧ (left ≠ [] → ¬((p.place r).landRing r).BufferAvailable)

/-- LANDING_WRITE_END (R134 to R136, R141 to R143): the landing ends with the last of its writes, and its cause, its
last flag and whether it was written whole decide what becomes of the message. GAP_TIMER_EXPIRY (R140): the holder's
message ends INCOMPLETE, and its later parcels will be discarded. That a message ended CANCELLED keeps its mode until its
release, and that the expiry of an idle gap timer changes nothing, are the model's (log entries 14 and 2). -/
def Obligations.MessageEnds : Prop :=
  (∀ (s : State) (r : Fin 8) (k : Nat) (ok : Bool) (a : Access) (l : Landing), s.hi.deviceState = .running →
      s.access? (.landingWrite r k) = some a → (s.landRing r).landing = some l →
      let p : Part :=
        { s.toPart with hi := { s.hi with
          accesses := s.hi.accesses.filter fun x => decide (x.kind ≠ .landingWrite r k) } }
      let fails := ok = false ∧ l.cause = .none
      let cause := if fails then .hostWriteFault else l.cause
      let writes := l.writes.filter fun n => decide (n ≠ k)
      let unplaced := if fails then [] else l.unplaced
      let i := l.stream
      let e := s.stream i
      let answer (q : Part) : Prop := exec (.landingWriteEnd r k ok) s = s.become q.settle
      let landed : Part := p.withRing r { s.landRing r with landing := none }
      let counted : Part :=
        landed.withStream i { e with reassembly := { e.reassembly with
          bytesSoFar := e.reassembly.bytesSoFar + l.payload.length } }
      (unplaced ≠ [] ∨ writes ≠ [] →
        answer (p.withRing r
          { s.landRing r with landing := some { l with cause := cause, writes := writes, unplaced := unplaced } }))
      ∧ (unplaced = [] → writes = [] →
          (l.kept = none → cause = .none →
            (l.whole = false → answer ((counted.messageEnded i .oversize .discarding).refreshRing r))
            ∧ (l.whole = true → l.last = true → answer ((counted.messageEnded i .ok .idle).refreshRing r))
            ∧ (l.whole = true → l.last = false → answer (counted.refreshRing r)))
          ∧ (l.kept = none → cause = .hostWriteFault →
              answer ((landed.messageEnded i .hostWriteFault .discarding).refreshRing r))
          ∧ (l.kept = none → cause = .cancelled →
              answer ((landed.messageEnded i .cancelled e.reassembly.mode).refreshRing r))
          ∧ (∀ m, l.kept = some m →
              let status : Status :=
                match cause with
                | .none => .ok
                | .hostWriteFault => .hostWriteFault
                | .cancelled => .cancelled
                | .linkLost => .linkLost
              let done : MessageCompletion := ⟨i, m.firstSlot, m.lastSlot, m.bytesSoFar, m.mark, status⟩
              answer ((Part.askClaim
                { s.toPart with
                  hi := p.hi
                  dl := { s.dl with
                    rings := s.dl.rings.set r
                      { s.landRing r with landing := none, current := none, waiting := some done }
                    line := s.dl.line ++ [.message r done] } } i).refreshRing r))))
  ∧ (∀ (s : State) (r : Fin 8),
      (∀ n i, (s.landRing r).gapTimer = .running n → (s.landRing r).holder = some i →
        exec (.gapTimerExpiry r) s = s.become
          ((((s.toPart.withRing r { s.landRing r with gapTimer := .idle }).messageEnded i .incomplete
            .discarding).refreshRing r).settle))
      ∧ ((s.landRing r).gapTimer = .idle → exec (.gapTimerExpiry r) s = s.become s.settle))

/-- The outcome of a context that has none (R66, R99, R105, R118): it joins the completion line, its staged parcel is
dropped, for any outcome but OK its replay entries turn VOID, and it leaves its stream's send line. SF's count of an
acknowledged parcel (R101): a SENT context whose parcels are all acknowledged is decided OK, and any other only
counts. -/
def Obligations.ContextOutcomes : Prop :=
  (∀ (p : Part) (c : Fin 32) (i : Fin 64) (outcome : Status), (p.context c).stream = i.val →
      let mine (x : ReplayEntry) : Prop := ∃ j k o n f l m, x.content = .data c j k o n f l m
      let line := (p.stream i).sendLine.filter fun x => decide (x ≠ c)
      ∃ q : Part,
        q.sf = p.sf.completed c outcome
        ∧ q.streams = p.streams.set i { p.stream i with sendLine := line }
        ∧ q.hi = p.hi ∧ q.lk = p.lk ∧ q.control = p.control ∧ q.ib = p.ib ∧ q.dl = p.dl ∧ q.cq = p.cq ∧ q.cm = p.cm
        ∧ q.rings = p.rings ∧ q.choice = p.choice
        ∧ (outcome = .ok → q.sq = p.sq)
        ∧ (outcome ≠ .ok → ∃ slot,
            q.sq = { p.sq with
              replay := p.sq.replay.map fun x =>
                match x.content with
                | .data c' _ _ _ _ _ _ _ => if c' = c then { x with content := .void } else x
                | _ => x
              slot := slot }
            ∧ (∀ n w reads, p.sq.slot = .reading n w reads → (∃ x ∈ p.sq.replay, mine x ∧ x.seq = n) →
                slot = .reading n false reads)
            ∧ (∀ n payload, p.sq.slot = .ready n payload → (∃ x ∈ p.sq.replay, mine x ∧ x.seq = n) →
                slot = .empty)
            ∧ ((∀ n w reads, p.sq.slot = .reading n w reads → ∀ x ∈ p.sq.replay, mine x → x.seq ≠ n) →
                (∀ n payload, p.sq.slot = .ready n payload → ∀ x ∈ p.sq.replay, mine x → x.seq ≠ n) →
                slot = p.sq.slot))
        ∧ (∀ d w reads, p.tx.staging = .reading d w reads → d.context = c →
            q.tx = { p.tx with staging := .reading d false reads })
        ∧ (∀ d payload, p.tx.staging = .ready d payload → d.context = c → q.tx = { p.tx with staging := .empty })
        ∧ ((∀ d w reads, p.tx.staging = .reading d w reads → d.context ≠ c) →
            (∀ d payload, p.tx.staging = .ready d payload → d.context ≠ c) → q.tx = p.tx)
        ∧ (line = [] → p.decideContext c outcome = q.exitTest i)
        ∧ (line ≠ [] → p.decideContext c outcome = q))
  ∧ (∀ (p : Part) (c : Fin 32),
      let x := p.context c
      let counted : Part := { p with sf := { p.sf with
        contexts := p.sf.contexts.set c { x with acknowledged := x.acknowledged + 1 } } }
      (x.state ≠ .sent ∨ x.acknowledged + 1 ≠ x.parcelCount → p.acknowledged c = counted)
      ∧ (x.state = .sent → x.acknowledged + 1 = x.parcelCount →
          (p.acknowledged c).context c =
              { x with acknowledged := x.acknowledged + 1, state := .completing, outcome := some .ok }
            ∧ (p.acknowledged c).sf.line = p.sf.line ++ [c]
            ∧ ∀ c', c' ≠ c → (p.acknowledged c).context c' = p.context c'))

/-! ## Parcels on the line -/

/-- Every parcel the part can send is read back by the framer's check as the parcel it is, with every field at every
value its width holds (R29, R196): a DATA parcel at any payload length that the payload size in force allows. -/
def Obligations.ParcelRoundTrip : Prop :=
  ∀ (size : Nat) (p : Parcel), p.wellFormed = true →
    (∀ seq d, p = .data seq d → 1 ≤ d.payload.length ∧ d.payload.length ≤ size) →
    readParcel size (parcelBytes p) = some p

/-! ## What every step keeps -/

/-- R23: the control queue never holds two entries of one kind for one stream, nor a GRANT or a CUT beside a
WITHDRAW. -/
def Obligations.ControlQueueKept : Prop :=
  ∀ s t : State, ControlOk s.control → step s = .next t → ControlOk t.control

/-- R71: the reserved total stays the sum of the allotments and at most 512, and only a stream in LOCAL_OPEN, OPEN or
WINDING has an allotment. -/
def Obligations.ReservationsKept : Prop :=
  ∀ s t : State, s.ReservationsOk → step s = .next t → t.ReservationsOk

/-- R81: outbound credits stay within the peer allotment, and are 0 outside OPEN and OFFERED. -/
def Obligations.CreditsKept : Prop :=
  ∀ s t : State, s.CreditsOk → step s = .next t → t.CreditsOk

/-- R54, R59: the replay list stays within the window and consecutive up to the next number, the rewind position on
it, and empty while the link is not UP. R32, R40, R41: the leaving of HELLO waits only in HELLO, and a teardown only in
UP with the framer busy. -/
def Obligations.SequencingKept : Prop :=
  ∀ s t : State, s.SequencingOk → step s = .next t → t.SequencingOk

/-- R146, R148, R156: the pending list never outgrows 32 entries, nor the free-slot count the ring. -/
def Obligations.CompletionsKept : Prop :=
  ∀ s t : State, s.CompletionsOk → step s = .next t → t.CompletionsOk

/-- R183, R184, R189, R190: the cause is NONE outside FAULT and ENABLE agrees with the device state; in FAULT the
link is OFFLINE, the replay list is empty and no timer runs. -/
def Obligations.DeviceStateKept : Prop :=
  ∀ s t : State, s.DeviceOk → s.FaultOk → step s = .next t → t.DeviceOk ∧ t.FaultOk

/-- The device state changes only as R184 to R189 say, and the configuration copy changes only by a load that ends in
RUNNING and by a reset (R186). In FAULT no command but a reset changes a unit, apart from the signal that the
transceiver reports and the framer's last transmission, and no host access is issued (R189, R190). -/
def Obligations.DeviceStateTransitions : Prop :=
  (∀ (c : Instr) (s : State) (q : Part), exec c s = s.become q →
      (s.hi.deviceState = .disabled → q.hi.deviceState ≠ .running)
      ∧ (s.hi.deviceState = .running → q.hi.deviceState ≠ .loading)
      ∧ (s.hi.deviceState = .fault → q.hi.deviceState = .fault ∨ q.hi.deviceState = .disabled)
      ∧ (q.hi.config = s.hi.config ∨ q.hi.config = {} ∧ q.hi.deviceState = .disabled
          ∨ s.hi.deviceState = .loading ∧ q.hi.deviceState = .running ∧ q.hi.config.valid = true))
  ∧ (∀ (c : Instr) (s : State) (q : Part), s.hi.deviceState = .fault → s.FaultOk → exec c s = s.become q →
      q.hi.deviceState = .fault →
      q.hi.faultCause = s.hi.faultCause ∧ q.sq = s.sq ∧ q.streams = s.streams ∧ q.control = s.control ∧ q.ib = s.ib
        ∧ q.tx = s.tx ∧ q.sf = s.sf ∧ q.dl = s.dl ∧ q.cq = s.cq ∧ q.cm = s.cm ∧ q.rings = s.rings
        ∧ (∀ a ∈ q.hi.accesses, a ∈ s.hi.accesses)
        ∧ ∃ present transmission,
            q.lk = { s.lk with signalPresent := present, transmission := transmission }
            ∧ (transmission = s.lk.transmission ∨ transmission = none))

/-- R162: every command but a power-on reset sends one interrupt message where the condition changes from not holding
to holding, and none otherwise. The count of messages is the model's (log entry 19). -/
def Obligations.InterruptOnTheEdge : Prop :=
  ∀ (c : Instr) (s : State) (q : Part), c ≠ .powerOnReset → exec c s = s.become q →
    (¬s.InterruptHolds → q.InterruptHolds → q.hi.interrupts = s.hi.interrupts + 1)
    ∧ (s.InterruptHolds ∨ ¬q.InterruptHolds → q.hi.interrupts = s.hi.interrupts)

/-- The state after a power-on reset meets every invariant. -/
def Obligations.ResetMeetsTheInvariants : Prop :=
  ControlOk State.reset.control ∧ State.reset.ReservationsOk ∧ State.reset.CreditsOk ∧ State.reset.SequencingOk
    ∧ State.reset.CompletionsOk ∧ State.reset.DeviceOk ∧ State.reset.FaultOk
end

