-- ==== Sys2Proof/Laws/State.lean ====
section
/-! SUPPORT. The small lemmas of the state: tables, and what each update leaves unchanged, one lemma a field. -/

namespace Sys2Proof

/-! ## Tables -/

theorem Table.get_eq (t : Table n α) (i : Fin n) :
    t.get i = t.toList[i.val]'(by have := t.length_eq; omega) := rfl

@[simp] theorem Table.get_set_self (t : Table n α) (i : Fin n) (a : α) : (t.set i a).get i = a := by
  simp [Table.get_eq, Table.set]

theorem Table.get_set_of_ne (t : Table n α) {i j : Fin n} (a : α) (h : j ≠ i) : (t.set i a).get j = t.get j := by
  have h' : i.val ≠ j.val := fun e => h (Fin.ext e.symm)
  simp [Table.get_eq, Table.set, h']

@[simp] theorem Table.get_modify_self (t : Table n α) (i : Fin n) (f : α → α) :
    (t.modify i f).get i = f (t.get i) := by simp [Table.modify]

theorem Table.get_modify_of_ne (t : Table n α) {i j : Fin n} (f : α → α) (h : j ≠ i) :
    (t.modify i f).get j = t.get j := by simp [Table.modify, Table.get_set_of_ne, h]

@[simp] theorem Table.get_fill (n : Nat) (a : α) (i : Fin n) : (Table.fill n a).get i = a := by
  simp [Table.get_eq, Table.fill]

@[simp] theorem Table.get_map (t : Table n α) (f : α → β) (i : Fin n) : (t.map f).get i = f (t.get i) := by
  simp [Table.get_eq, Table.map]

/-- Two tables with equal entries are equal. -/
theorem Table.ext_get {t u : Table n α} (h : ∀ i, t.get i = u.get i) : t = u := by
  obtain ⟨l, hl⟩ := t
  obtain ⟨m, hm⟩ := u
  have : l = m := by
    apply List.ext_getElem (by omega)
    intro k hk _
    simpa [Table.get_eq] using h ⟨k, by omega⟩
  subst this
  rfl

@[simp] theorem Table.set_get (t : Table n α) (i : Fin n) : t.set i (t.get i) = t := by
  apply Table.ext_get
  intro j
  by_cases h : j = i
  · subst h; simp
  · simp [Table.get_set_of_ne, h]

@[simp] theorem Table.set_set (t : Table n α) (i : Fin n) (a b : α) : (t.set i a).set i b = t.set i b := by
  apply Table.ext_get
  intro j
  by_cases h : j = i
  · subst h; simp
  · simp [Table.get_set_of_ne, h]

namespace Machine

variable (p : Part)

/-! ### `Part.modStream` -/

@[simp] theorem Part.modStream_hi (i : Fin 64) (f : StreamEntry → StreamEntry) : (p.modStream i f).hi = p.hi := rfl
@[simp] theorem Part.modStream_lk (i : Fin 64) (f : StreamEntry → StreamEntry) : (p.modStream i f).lk = p.lk := rfl
@[simp] theorem Part.modStream_sq (i : Fin 64) (f : StreamEntry → StreamEntry) : (p.modStream i f).sq = p.sq := rfl
@[simp] theorem Part.modStream_control (i : Fin 64) (f : StreamEntry → StreamEntry) :
    (p.modStream i f).control = p.control := rfl
@[simp] theorem Part.modStream_ib (i : Fin 64) (f : StreamEntry → StreamEntry) : (p.modStream i f).ib = p.ib := rfl
@[simp] theorem Part.modStream_tx (i : Fin 64) (f : StreamEntry → StreamEntry) : (p.modStream i f).tx = p.tx := rfl
@[simp] theorem Part.modStream_sf (i : Fin 64) (f : StreamEntry → StreamEntry) : (p.modStream i f).sf = p.sf := rfl
@[simp] theorem Part.modStream_dl (i : Fin 64) (f : StreamEntry → StreamEntry) : (p.modStream i f).dl = p.dl := rfl
@[simp] theorem Part.modStream_cq (i : Fin 64) (f : StreamEntry → StreamEntry) : (p.modStream i f).cq = p.cq := rfl
@[simp] theorem Part.modStream_cm (i : Fin 64) (f : StreamEntry → StreamEntry) : (p.modStream i f).cm = p.cm := rfl
@[simp] theorem Part.modStream_rings (i : Fin 64) (f : StreamEntry → StreamEntry) :
    (p.modStream i f).rings = p.rings := rfl
@[simp] theorem Part.modStream_choice (i : Fin 64) (f : StreamEntry → StreamEntry) :
    (p.modStream i f).choice = p.choice := rfl

/-! ### `Part.setQueue` -/

@[simp] theorem Part.setQueue_hi (i : Fin 64) (q : List InboundEntry) : (p.setQueue i q).hi = p.hi := rfl
@[simp] theorem Part.setQueue_lk (i : Fin 64) (q : List InboundEntry) : (p.setQueue i q).lk = p.lk := rfl
@[simp] theorem Part.setQueue_sq (i : Fin 64) (q : List InboundEntry) : (p.setQueue i q).sq = p.sq := rfl
@[simp] theorem Part.setQueue_streams (i : Fin 64) (q : List InboundEntry) :
    (p.setQueue i q).streams = p.streams := rfl
@[simp] theorem Part.setQueue_control (i : Fin 64) (q : List InboundEntry) :
    (p.setQueue i q).control = p.control := rfl
@[simp] theorem Part.setQueue_tx (i : Fin 64) (q : List InboundEntry) : (p.setQueue i q).tx = p.tx := rfl
@[simp] theorem Part.setQueue_sf (i : Fin 64) (q : List InboundEntry) : (p.setQueue i q).sf = p.sf := rfl
@[simp] theorem Part.setQueue_dl (i : Fin 64) (q : List InboundEntry) : (p.setQueue i q).dl = p.dl := rfl
@[simp] theorem Part.setQueue_cq (i : Fin 64) (q : List InboundEntry) : (p.setQueue i q).cq = p.cq := rfl
@[simp] theorem Part.setQueue_cm (i : Fin 64) (q : List InboundEntry) : (p.setQueue i q).cm = p.cm := rfl
@[simp] theorem Part.setQueue_rings (i : Fin 64) (q : List InboundEntry) : (p.setQueue i q).rings = p.rings := rfl
@[simp] theorem Part.setQueue_choice (i : Fin 64) (q : List InboundEntry) : (p.setQueue i q).choice = p.choice := rfl

/-! ### `Part.modContext` -/

@[simp] theorem Part.modContext_hi (c : Fin 32) (f : Context → Context) : (p.modContext c f).hi = p.hi := rfl
@[simp] theorem Part.modContext_lk (c : Fin 32) (f : Context → Context) : (p.modContext c f).lk = p.lk := rfl
@[simp] theorem Part.modContext_sq (c : Fin 32) (f : Context → Context) : (p.modContext c f).sq = p.sq := rfl
@[simp] theorem Part.modContext_streams (c : Fin 32) (f : Context → Context) :
    (p.modContext c f).streams = p.streams := rfl
@[simp] theorem Part.modContext_control (c : Fin 32) (f : Context → Context) :
    (p.modContext c f).control = p.control := rfl
@[simp] theorem Part.modContext_ib (c : Fin 32) (f : Context → Context) : (p.modContext c f).ib = p.ib := rfl
@[simp] theorem Part.modContext_tx (c : Fin 32) (f : Context → Context) : (p.modContext c f).tx = p.tx := rfl
@[simp] theorem Part.modContext_dl (c : Fin 32) (f : Context → Context) : (p.modContext c f).dl = p.dl := rfl
@[simp] theorem Part.modContext_cq (c : Fin 32) (f : Context → Context) : (p.modContext c f).cq = p.cq := rfl
@[simp] theorem Part.modContext_cm (c : Fin 32) (f : Context → Context) : (p.modContext c f).cm = p.cm := rfl
@[simp] theorem Part.modContext_rings (c : Fin 32) (f : Context → Context) : (p.modContext c f).rings = p.rings := rfl
@[simp] theorem Part.modContext_choice (c : Fin 32) (f : Context → Context) :
    (p.modContext c f).choice = p.choice := rfl

/-! ### `Part.modLandRing` -/

@[simp] theorem Part.modLandRing_hi (r : Fin 8) (f : LandingRing → LandingRing) : (p.modLandRing r f).hi = p.hi := rfl
@[simp] theorem Part.modLandRing_lk (r : Fin 8) (f : LandingRing → LandingRing) : (p.modLandRing r f).lk = p.lk := rfl
@[simp] theorem Part.modLandRing_sq (r : Fin 8) (f : LandingRing → LandingRing) : (p.modLandRing r f).sq = p.sq := rfl
@[simp] theorem Part.modLandRing_streams (r : Fin 8) (f : LandingRing → LandingRing) :
    (p.modLandRing r f).streams = p.streams := rfl
@[simp] theorem Part.modLandRing_control (r : Fin 8) (f : LandingRing → LandingRing) :
    (p.modLandRing r f).control = p.control := rfl
@[simp] theorem Part.modLandRing_ib (r : Fin 8) (f : LandingRing → LandingRing) : (p.modLandRing r f).ib = p.ib := rfl
@[simp] theorem Part.modLandRing_tx (r : Fin 8) (f : LandingRing → LandingRing) : (p.modLandRing r f).tx = p.tx := rfl
@[simp] theorem Part.modLandRing_sf (r : Fin 8) (f : LandingRing → LandingRing) : (p.modLandRing r f).sf = p.sf := rfl
@[simp] theorem Part.modLandRing_cq (r : Fin 8) (f : LandingRing → LandingRing) : (p.modLandRing r f).cq = p.cq := rfl
@[simp] theorem Part.modLandRing_cm (r : Fin 8) (f : LandingRing → LandingRing) : (p.modLandRing r f).cm = p.cm := rfl
@[simp] theorem Part.modLandRing_rings (r : Fin 8) (f : LandingRing → LandingRing) :
    (p.modLandRing r f).rings = p.rings := rfl
@[simp] theorem Part.modLandRing_choice (r : Fin 8) (f : LandingRing → LandingRing) :
    (p.modLandRing r f).choice = p.choice := rfl

/-! ### `Part.issue` -/

@[simp] theorem Part.issue_lk (a : Access) : (p.issue a).lk = p.lk := rfl
@[simp] theorem Part.issue_sq (a : Access) : (p.issue a).sq = p.sq := rfl
@[simp] theorem Part.issue_streams (a : Access) : (p.issue a).streams = p.streams := rfl
@[simp] theorem Part.issue_control (a : Access) : (p.issue a).control = p.control := rfl
@[simp] theorem Part.issue_ib (a : Access) : (p.issue a).ib = p.ib := rfl
@[simp] theorem Part.issue_tx (a : Access) : (p.issue a).tx = p.tx := rfl
@[simp] theorem Part.issue_sf (a : Access) : (p.issue a).sf = p.sf := rfl
@[simp] theorem Part.issue_dl (a : Access) : (p.issue a).dl = p.dl := rfl
@[simp] theorem Part.issue_cq (a : Access) : (p.issue a).cq = p.cq := rfl
@[simp] theorem Part.issue_cm (a : Access) : (p.issue a).cm = p.cm := rfl
@[simp] theorem Part.issue_rings (a : Access) : (p.issue a).rings = p.rings := rfl
@[simp] theorem Part.issue_choice (a : Access) : (p.issue a).choice = p.choice := rfl

/-! ### `Part.issueAll` -/

@[simp] theorem Part.issueAll_lk (as : List Access) : (p.issueAll as).lk = p.lk := rfl
@[simp] theorem Part.issueAll_sq (as : List Access) : (p.issueAll as).sq = p.sq := rfl
@[simp] theorem Part.issueAll_streams (as : List Access) : (p.issueAll as).streams = p.streams := rfl
@[simp] theorem Part.issueAll_control (as : List Access) : (p.issueAll as).control = p.control := rfl
@[simp] theorem Part.issueAll_ib (as : List Access) : (p.issueAll as).ib = p.ib := rfl
@[simp] theorem Part.issueAll_tx (as : List Access) : (p.issueAll as).tx = p.tx := rfl
@[simp] theorem Part.issueAll_sf (as : List Access) : (p.issueAll as).sf = p.sf := rfl
@[simp] theorem Part.issueAll_dl (as : List Access) : (p.issueAll as).dl = p.dl := rfl
@[simp] theorem Part.issueAll_cq (as : List Access) : (p.issueAll as).cq = p.cq := rfl
@[simp] theorem Part.issueAll_cm (as : List Access) : (p.issueAll as).cm = p.cm := rfl
@[simp] theorem Part.issueAll_rings (as : List Access) : (p.issueAll as).rings = p.rings := rfl
@[simp] theorem Part.issueAll_choice (as : List Access) : (p.issueAll as).choice = p.choice := rfl

/-! ### `Part.endAccess` -/

@[simp] theorem Part.endAccess_lk (k : AccessKind) : (p.endAccess k).lk = p.lk := rfl
@[simp] theorem Part.endAccess_sq (k : AccessKind) : (p.endAccess k).sq = p.sq := rfl
@[simp] theorem Part.endAccess_streams (k : AccessKind) : (p.endAccess k).streams = p.streams := rfl
@[simp] theorem Part.endAccess_control (k : AccessKind) : (p.endAccess k).control = p.control := rfl
@[simp] theorem Part.endAccess_ib (k : AccessKind) : (p.endAccess k).ib = p.ib := rfl
@[simp] theorem Part.endAccess_tx (k : AccessKind) : (p.endAccess k).tx = p.tx := rfl
@[simp] theorem Part.endAccess_sf (k : AccessKind) : (p.endAccess k).sf = p.sf := rfl
@[simp] theorem Part.endAccess_dl (k : AccessKind) : (p.endAccess k).dl = p.dl := rfl
@[simp] theorem Part.endAccess_cq (k : AccessKind) : (p.endAccess k).cq = p.cq := rfl
@[simp] theorem Part.endAccess_cm (k : AccessKind) : (p.endAccess k).cm = p.cm := rfl
@[simp] theorem Part.endAccess_rings (k : AccessKind) : (p.endAccess k).rings = p.rings := rfl
@[simp] theorem Part.endAccess_choice (k : AccessKind) : (p.endAccess k).choice = p.choice := rfl

/-! ### `Part.expectLate` -/

@[simp] theorem Part.expectLate_lk (a : Access) : (p.expectLate a).lk = p.lk := rfl
@[simp] theorem Part.expectLate_sq (a : Access) : (p.expectLate a).sq = p.sq := rfl
@[simp] theorem Part.expectLate_streams (a : Access) : (p.expectLate a).streams = p.streams := rfl
@[simp] theorem Part.expectLate_control (a : Access) : (p.expectLate a).control = p.control := rfl
@[simp] theorem Part.expectLate_ib (a : Access) : (p.expectLate a).ib = p.ib := rfl
@[simp] theorem Part.expectLate_tx (a : Access) : (p.expectLate a).tx = p.tx := rfl
@[simp] theorem Part.expectLate_sf (a : Access) : (p.expectLate a).sf = p.sf := rfl
@[simp] theorem Part.expectLate_dl (a : Access) : (p.expectLate a).dl = p.dl := rfl
@[simp] theorem Part.expectLate_cq (a : Access) : (p.expectLate a).cq = p.cq := rfl
@[simp] theorem Part.expectLate_cm (a : Access) : (p.expectLate a).cm = p.cm := rfl
@[simp] theorem Part.expectLate_rings (a : Access) : (p.expectLate a).rings = p.rings := rfl
@[simp] theorem Part.expectLate_choice (a : Access) : (p.expectLate a).choice = p.choice := rfl
@[simp] theorem Part.expectLate_deviceState (a : Access) : (p.expectLate a).hi.deviceState = p.hi.deviceState := rfl
@[simp] theorem Part.expectLate_access? (a : Access) (k : AccessKind) : (p.expectLate a).access? k = p.access? k := rfl

/-! ### `Part.modCounters` -/

@[simp] theorem Part.modCounters_hi (f : Counters → Counters) : (p.modCounters f).hi = p.hi := rfl
@[simp] theorem Part.modCounters_sq (f : Counters → Counters) : (p.modCounters f).sq = p.sq := rfl
@[simp] theorem Part.modCounters_streams (f : Counters → Counters) : (p.modCounters f).streams = p.streams := rfl
@[simp] theorem Part.modCounters_control (f : Counters → Counters) : (p.modCounters f).control = p.control := rfl
@[simp] theorem Part.modCounters_ib (f : Counters → Counters) : (p.modCounters f).ib = p.ib := rfl
@[simp] theorem Part.modCounters_tx (f : Counters → Counters) : (p.modCounters f).tx = p.tx := rfl
@[simp] theorem Part.modCounters_sf (f : Counters → Counters) : (p.modCounters f).sf = p.sf := rfl
@[simp] theorem Part.modCounters_dl (f : Counters → Counters) : (p.modCounters f).dl = p.dl := rfl
@[simp] theorem Part.modCounters_cq (f : Counters → Counters) : (p.modCounters f).cq = p.cq := rfl
@[simp] theorem Part.modCounters_cm (f : Counters → Counters) : (p.modCounters f).cm = p.cm := rfl
@[simp] theorem Part.modCounters_rings (f : Counters → Counters) : (p.modCounters f).rings = p.rings := rfl
@[simp] theorem Part.modCounters_choice (f : Counters → Counters) : (p.modCounters f).choice = p.choice := rfl

/-! ### `Part.countParcelSent` -/

@[simp] theorem Part.countParcelSent_hi : (p.countParcelSent).hi = p.hi := rfl
@[simp] theorem Part.countParcelSent_sq : (p.countParcelSent).sq = p.sq := rfl
@[simp] theorem Part.countParcelSent_streams : (p.countParcelSent).streams = p.streams := rfl
@[simp] theorem Part.countParcelSent_control : (p.countParcelSent).control = p.control := rfl
@[simp] theorem Part.countParcelSent_ib : (p.countParcelSent).ib = p.ib := rfl
@[simp] theorem Part.countParcelSent_tx : (p.countParcelSent).tx = p.tx := rfl
@[simp] theorem Part.countParcelSent_sf : (p.countParcelSent).sf = p.sf := rfl
@[simp] theorem Part.countParcelSent_dl : (p.countParcelSent).dl = p.dl := rfl
@[simp] theorem Part.countParcelSent_cq : (p.countParcelSent).cq = p.cq := rfl
@[simp] theorem Part.countParcelSent_cm : (p.countParcelSent).cm = p.cm := rfl
@[simp] theorem Part.countParcelSent_rings : (p.countParcelSent).rings = p.rings := rfl
@[simp] theorem Part.countParcelSent_choice : (p.countParcelSent).choice = p.choice := rfl

/-! ### `Part.countReplayed` -/

@[simp] theorem Part.countReplayed_hi : (p.countReplayed).hi = p.hi := rfl
@[simp] theorem Part.countReplayed_sq : (p.countReplayed).sq = p.sq := rfl
@[simp] theorem Part.countReplayed_streams : (p.countReplayed).streams = p.streams := rfl
@[simp] theorem Part.countReplayed_control : (p.countReplayed).control = p.control := rfl
@[simp] theorem Part.countReplayed_ib : (p.countReplayed).ib = p.ib := rfl
@[simp] theorem Part.countReplayed_tx : (p.countReplayed).tx = p.tx := rfl
@[simp] theorem Part.countReplayed_sf : (p.countReplayed).sf = p.sf := rfl
@[simp] theorem Part.countReplayed_dl : (p.countReplayed).dl = p.dl := rfl
@[simp] theorem Part.countReplayed_cq : (p.countReplayed).cq = p.cq := rfl
@[simp] theorem Part.countReplayed_cm : (p.countReplayed).cm = p.cm := rfl
@[simp] theorem Part.countReplayed_rings : (p.countReplayed).rings = p.rings := rfl
@[simp] theorem Part.countReplayed_choice : (p.countReplayed).choice = p.choice := rfl

/-! ### `Part.countRetrySent` -/

@[simp] theorem Part.countRetrySent_hi : (p.countRetrySent).hi = p.hi := rfl
@[simp] theorem Part.countRetrySent_sq : (p.countRetrySent).sq = p.sq := rfl
@[simp] theorem Part.countRetrySent_streams : (p.countRetrySent).streams = p.streams := rfl
@[simp] theorem Part.countRetrySent_control : (p.countRetrySent).control = p.control := rfl
@[simp] theorem Part.countRetrySent_ib : (p.countRetrySent).ib = p.ib := rfl
@[simp] theorem Part.countRetrySent_tx : (p.countRetrySent).tx = p.tx := rfl
@[simp] theorem Part.countRetrySent_sf : (p.countRetrySent).sf = p.sf := rfl
@[simp] theorem Part.countRetrySent_dl : (p.countRetrySent).dl = p.dl := rfl
@[simp] theorem Part.countRetrySent_cq : (p.countRetrySent).cq = p.cq := rfl
@[simp] theorem Part.countRetrySent_cm : (p.countRetrySent).cm = p.cm := rfl
@[simp] theorem Part.countRetrySent_rings : (p.countRetrySent).rings = p.rings := rfl
@[simp] theorem Part.countRetrySent_choice : (p.countRetrySent).choice = p.choice := rfl

/-! ### `Part.countRetryReceived` -/

@[simp] theorem Part.countRetryReceived_hi : (p.countRetryReceived).hi = p.hi := rfl
@[simp] theorem Part.countRetryReceived_sq : (p.countRetryReceived).sq = p.sq := rfl
@[simp] theorem Part.countRetryReceived_streams : (p.countRetryReceived).streams = p.streams := rfl
@[simp] theorem Part.countRetryReceived_control : (p.countRetryReceived).control = p.control := rfl
@[simp] theorem Part.countRetryReceived_ib : (p.countRetryReceived).ib = p.ib := rfl
@[simp] theorem Part.countRetryReceived_tx : (p.countRetryReceived).tx = p.tx := rfl
@[simp] theorem Part.countRetryReceived_sf : (p.countRetryReceived).sf = p.sf := rfl
@[simp] theorem Part.countRetryReceived_dl : (p.countRetryReceived).dl = p.dl := rfl
@[simp] theorem Part.countRetryReceived_cq : (p.countRetryReceived).cq = p.cq := rfl
@[simp] theorem Part.countRetryReceived_cm : (p.countRetryReceived).cm = p.cm := rfl
@[simp] theorem Part.countRetryReceived_rings : (p.countRetryReceived).rings = p.rings := rfl
@[simp] theorem Part.countRetryReceived_choice : (p.countRetryReceived).choice = p.choice := rfl

/-! ### `Part.countBadParcel` -/

@[simp] theorem Part.countBadParcel_hi : (p.countBadParcel).hi = p.hi := rfl
@[simp] theorem Part.countBadParcel_sq : (p.countBadParcel).sq = p.sq := rfl
@[simp] theorem Part.countBadParcel_streams : (p.countBadParcel).streams = p.streams := rfl
@[simp] theorem Part.countBadParcel_control : (p.countBadParcel).control = p.control := rfl
@[simp] theorem Part.countBadParcel_ib : (p.countBadParcel).ib = p.ib := rfl
@[simp] theorem Part.countBadParcel_tx : (p.countBadParcel).tx = p.tx := rfl
@[simp] theorem Part.countBadParcel_sf : (p.countBadParcel).sf = p.sf := rfl
@[simp] theorem Part.countBadParcel_dl : (p.countBadParcel).dl = p.dl := rfl
@[simp] theorem Part.countBadParcel_cq : (p.countBadParcel).cq = p.cq := rfl
@[simp] theorem Part.countBadParcel_cm : (p.countBadParcel).cm = p.cm := rfl
@[simp] theorem Part.countBadParcel_rings : (p.countBadParcel).rings = p.rings := rfl
@[simp] theorem Part.countBadParcel_choice : (p.countBadParcel).choice = p.choice := rfl

/-! ### `Part.countDuplicate` -/

@[simp] theorem Part.countDuplicate_hi : (p.countDuplicate).hi = p.hi := rfl
@[simp] theorem Part.countDuplicate_sq : (p.countDuplicate).sq = p.sq := rfl
@[simp] theorem Part.countDuplicate_streams : (p.countDuplicate).streams = p.streams := rfl
@[simp] theorem Part.countDuplicate_control : (p.countDuplicate).control = p.control := rfl
@[simp] theorem Part.countDuplicate_ib : (p.countDuplicate).ib = p.ib := rfl
@[simp] theorem Part.countDuplicate_tx : (p.countDuplicate).tx = p.tx := rfl
@[simp] theorem Part.countDuplicate_sf : (p.countDuplicate).sf = p.sf := rfl
@[simp] theorem Part.countDuplicate_dl : (p.countDuplicate).dl = p.dl := rfl
@[simp] theorem Part.countDuplicate_cq : (p.countDuplicate).cq = p.cq := rfl
@[simp] theorem Part.countDuplicate_cm : (p.countDuplicate).cm = p.cm := rfl
@[simp] theorem Part.countDuplicate_rings : (p.countDuplicate).rings = p.rings := rfl
@[simp] theorem Part.countDuplicate_choice : (p.countDuplicate).choice = p.choice := rfl

/-! ### `Part.countStaleAck` -/

@[simp] theorem Part.countStaleAck_hi : (p.countStaleAck).hi = p.hi := rfl
@[simp] theorem Part.countStaleAck_sq : (p.countStaleAck).sq = p.sq := rfl
@[simp] theorem Part.countStaleAck_streams : (p.countStaleAck).streams = p.streams := rfl
@[simp] theorem Part.countStaleAck_control : (p.countStaleAck).control = p.control := rfl
@[simp] theorem Part.countStaleAck_ib : (p.countStaleAck).ib = p.ib := rfl
@[simp] theorem Part.countStaleAck_tx : (p.countStaleAck).tx = p.tx := rfl
@[simp] theorem Part.countStaleAck_sf : (p.countStaleAck).sf = p.sf := rfl
@[simp] theorem Part.countStaleAck_dl : (p.countStaleAck).dl = p.dl := rfl
@[simp] theorem Part.countStaleAck_cq : (p.countStaleAck).cq = p.cq := rfl
@[simp] theorem Part.countStaleAck_cm : (p.countStaleAck).cm = p.cm := rfl
@[simp] theorem Part.countStaleAck_rings : (p.countStaleAck).rings = p.rings := rfl
@[simp] theorem Part.countStaleAck_choice : (p.countStaleAck).choice = p.choice := rfl

/-! ### `Part.countProtocolError` -/

@[simp] theorem Part.countProtocolError_hi : (p.countProtocolError).hi = p.hi := rfl
@[simp] theorem Part.countProtocolError_sq : (p.countProtocolError).sq = p.sq := rfl
@[simp] theorem Part.countProtocolError_streams : (p.countProtocolError).streams = p.streams := rfl
@[simp] theorem Part.countProtocolError_control : (p.countProtocolError).control = p.control := rfl
@[simp] theorem Part.countProtocolError_ib : (p.countProtocolError).ib = p.ib := rfl
@[simp] theorem Part.countProtocolError_tx : (p.countProtocolError).tx = p.tx := rfl
@[simp] theorem Part.countProtocolError_sf : (p.countProtocolError).sf = p.sf := rfl
@[simp] theorem Part.countProtocolError_dl : (p.countProtocolError).dl = p.dl := rfl
@[simp] theorem Part.countProtocolError_cq : (p.countProtocolError).cq = p.cq := rfl
@[simp] theorem Part.countProtocolError_cm : (p.countProtocolError).cm = p.cm := rfl
@[simp] theorem Part.countProtocolError_rings : (p.countProtocolError).rings = p.rings := rfl
@[simp] theorem Part.countProtocolError_choice : (p.countProtocolError).choice = p.choice := rfl

/-! ### `Part.countLinkFault` -/

@[simp] theorem Part.countLinkFault_hi : (p.countLinkFault).hi = p.hi := rfl
@[simp] theorem Part.countLinkFault_sq : (p.countLinkFault).sq = p.sq := rfl
@[simp] theorem Part.countLinkFault_streams : (p.countLinkFault).streams = p.streams := rfl
@[simp] theorem Part.countLinkFault_control : (p.countLinkFault).control = p.control := rfl
@[simp] theorem Part.countLinkFault_ib : (p.countLinkFault).ib = p.ib := rfl
@[simp] theorem Part.countLinkFault_tx : (p.countLinkFault).tx = p.tx := rfl
@[simp] theorem Part.countLinkFault_sf : (p.countLinkFault).sf = p.sf := rfl
@[simp] theorem Part.countLinkFault_dl : (p.countLinkFault).dl = p.dl := rfl
@[simp] theorem Part.countLinkFault_cq : (p.countLinkFault).cq = p.cq := rfl
@[simp] theorem Part.countLinkFault_cm : (p.countLinkFault).cm = p.cm := rfl
@[simp] theorem Part.countLinkFault_rings : (p.countLinkFault).rings = p.rings := rfl
@[simp] theorem Part.countLinkFault_choice : (p.countLinkFault).choice = p.choice := rfl

/-! ### `Part.setEventMask` -/

@[simp] theorem Part.setEventMask_lk (event mask : BitVec 3) : (p.setEventMask event mask).lk = p.lk := rfl
@[simp] theorem Part.setEventMask_sq (event mask : BitVec 3) : (p.setEventMask event mask).sq = p.sq := rfl
@[simp] theorem Part.setEventMask_streams (event mask : BitVec 3) :
    (p.setEventMask event mask).streams = p.streams := rfl
@[simp] theorem Part.setEventMask_control (event mask : BitVec 3) :
    (p.setEventMask event mask).control = p.control := rfl
@[simp] theorem Part.setEventMask_ib (event mask : BitVec 3) : (p.setEventMask event mask).ib = p.ib := rfl
@[simp] theorem Part.setEventMask_tx (event mask : BitVec 3) : (p.setEventMask event mask).tx = p.tx := rfl
@[simp] theorem Part.setEventMask_sf (event mask : BitVec 3) : (p.setEventMask event mask).sf = p.sf := rfl
@[simp] theorem Part.setEventMask_dl (event mask : BitVec 3) : (p.setEventMask event mask).dl = p.dl := rfl
@[simp] theorem Part.setEventMask_cq (event mask : BitVec 3) : (p.setEventMask event mask).cq = p.cq := rfl
@[simp] theorem Part.setEventMask_cm (event mask : BitVec 3) : (p.setEventMask event mask).cm = p.cm := rfl
@[simp] theorem Part.setEventMask_rings (event mask : BitVec 3) : (p.setEventMask event mask).rings = p.rings := rfl
@[simp] theorem Part.setEventMask_choice (event mask : BitVec 3) :
    (p.setEventMask event mask).choice = p.choice := rfl

/-! ### `Part.raise` -/

@[simp] theorem Part.raise_lk (bit : BitVec 3) : (p.raise bit).lk = p.lk := rfl
@[simp] theorem Part.raise_sq (bit : BitVec 3) : (p.raise bit).sq = p.sq := rfl
@[simp] theorem Part.raise_streams (bit : BitVec 3) : (p.raise bit).streams = p.streams := rfl
@[simp] theorem Part.raise_control (bit : BitVec 3) : (p.raise bit).control = p.control := rfl
@[simp] theorem Part.raise_ib (bit : BitVec 3) : (p.raise bit).ib = p.ib := rfl
@[simp] theorem Part.raise_tx (bit : BitVec 3) : (p.raise bit).tx = p.tx := rfl
@[simp] theorem Part.raise_sf (bit : BitVec 3) : (p.raise bit).sf = p.sf := rfl
@[simp] theorem Part.raise_dl (bit : BitVec 3) : (p.raise bit).dl = p.dl := rfl
@[simp] theorem Part.raise_cq (bit : BitVec 3) : (p.raise bit).cq = p.cq := rfl
@[simp] theorem Part.raise_cm (bit : BitVec 3) : (p.raise bit).cm = p.cm := rfl
@[simp] theorem Part.raise_rings (bit : BitVec 3) : (p.raise bit).rings = p.rings := rfl
@[simp] theorem Part.raise_choice (bit : BitVec 3) : (p.raise bit).choice = p.choice := rfl

/-! ### `Part.streamProtocolError` -/

@[simp] theorem Part.streamProtocolError_hi (i : Fin 64) (cause : ProtocolCause) :
    (p.streamProtocolError i cause).hi = p.hi := rfl
@[simp] theorem Part.streamProtocolError_sq (i : Fin 64) (cause : ProtocolCause) :
    (p.streamProtocolError i cause).sq = p.sq := rfl
@[simp] theorem Part.streamProtocolError_control (i : Fin 64) (cause : ProtocolCause) :
    (p.streamProtocolError i cause).control = p.control := rfl
@[simp] theorem Part.streamProtocolError_ib (i : Fin 64) (cause : ProtocolCause) :
    (p.streamProtocolError i cause).ib = p.ib := rfl
@[simp] theorem Part.streamProtocolError_tx (i : Fin 64) (cause : ProtocolCause) :
    (p.streamProtocolError i cause).tx = p.tx := rfl
@[simp] theorem Part.streamProtocolError_sf (i : Fin 64) (cause : ProtocolCause) :
    (p.streamProtocolError i cause).sf = p.sf := rfl
@[simp] theorem Part.streamProtocolError_dl (i : Fin 64) (cause : ProtocolCause) :
    (p.streamProtocolError i cause).dl = p.dl := rfl
@[simp] theorem Part.streamProtocolError_cq (i : Fin 64) (cause : ProtocolCause) :
    (p.streamProtocolError i cause).cq = p.cq := rfl
@[simp] theorem Part.streamProtocolError_cm (i : Fin 64) (cause : ProtocolCause) :
    (p.streamProtocolError i cause).cm = p.cm := rfl
@[simp] theorem Part.streamProtocolError_rings (i : Fin 64) (cause : ProtocolCause) :
    (p.streamProtocolError i cause).rings = p.rings := rfl
@[simp] theorem Part.streamProtocolError_choice (i : Fin 64) (cause : ProtocolCause) :
    (p.streamProtocolError i cause).choice = p.choice := rfl

/-! ### `Part.linkProtocolError` -/

@[simp] theorem Part.linkProtocolError_hi (cause : ProtocolCause) : (p.linkProtocolError cause).hi = p.hi := rfl
@[simp] theorem Part.linkProtocolError_sq (cause : ProtocolCause) : (p.linkProtocolError cause).sq = p.sq := rfl
@[simp] theorem Part.linkProtocolError_streams (cause : ProtocolCause) :
    (p.linkProtocolError cause).streams = p.streams := rfl
@[simp] theorem Part.linkProtocolError_control (cause : ProtocolCause) :
    (p.linkProtocolError cause).control = p.control := rfl
@[simp] theorem Part.linkProtocolError_ib (cause : ProtocolCause) : (p.linkProtocolError cause).ib = p.ib := rfl
@[simp] theorem Part.linkProtocolError_tx (cause : ProtocolCause) : (p.linkProtocolError cause).tx = p.tx := rfl
@[simp] theorem Part.linkProtocolError_sf (cause : ProtocolCause) : (p.linkProtocolError cause).sf = p.sf := rfl
@[simp] theorem Part.linkProtocolError_dl (cause : ProtocolCause) : (p.linkProtocolError cause).dl = p.dl := rfl
@[simp] theorem Part.linkProtocolError_cq (cause : ProtocolCause) : (p.linkProtocolError cause).cq = p.cq := rfl
@[simp] theorem Part.linkProtocolError_cm (cause : ProtocolCause) : (p.linkProtocolError cause).cm = p.cm := rfl
@[simp] theorem Part.linkProtocolError_rings (cause : ProtocolCause) :
    (p.linkProtocolError cause).rings = p.rings := rfl
@[simp] theorem Part.linkProtocolError_choice (cause : ProtocolCause) :
    (p.linkProtocolError cause).choice = p.choice := rfl

/-! ### `Part.noteAck` -/

@[simp] theorem Part.noteAck_hi : (p.noteAck).hi = p.hi := rfl
@[simp] theorem Part.noteAck_lk : (p.noteAck).lk = p.lk := rfl
@[simp] theorem Part.noteAck_streams : (p.noteAck).streams = p.streams := rfl
@[simp] theorem Part.noteAck_control : (p.noteAck).control = p.control := rfl
@[simp] theorem Part.noteAck_ib : (p.noteAck).ib = p.ib := rfl
@[simp] theorem Part.noteAck_tx : (p.noteAck).tx = p.tx := rfl
@[simp] theorem Part.noteAck_sf : (p.noteAck).sf = p.sf := rfl
@[simp] theorem Part.noteAck_dl : (p.noteAck).dl = p.dl := rfl
@[simp] theorem Part.noteAck_cq : (p.noteAck).cq = p.cq := rfl
@[simp] theorem Part.noteAck_cm : (p.noteAck).cm = p.cm := rfl
@[simp] theorem Part.noteAck_rings : (p.noteAck).rings = p.rings := rfl
@[simp] theorem Part.noteAck_choice : (p.noteAck).choice = p.choice := rfl

/-! ### `Part.acceptNumber` -/

@[simp] theorem Part.acceptNumber_hi : (p.acceptNumber).hi = p.hi := rfl
@[simp] theorem Part.acceptNumber_lk : (p.acceptNumber).lk = p.lk := rfl
@[simp] theorem Part.acceptNumber_streams : (p.acceptNumber).streams = p.streams := rfl
@[simp] theorem Part.acceptNumber_control : (p.acceptNumber).control = p.control := rfl
@[simp] theorem Part.acceptNumber_ib : (p.acceptNumber).ib = p.ib := rfl
@[simp] theorem Part.acceptNumber_tx : (p.acceptNumber).tx = p.tx := rfl
@[simp] theorem Part.acceptNumber_sf : (p.acceptNumber).sf = p.sf := rfl
@[simp] theorem Part.acceptNumber_dl : (p.acceptNumber).dl = p.dl := rfl
@[simp] theorem Part.acceptNumber_cq : (p.acceptNumber).cq = p.cq := rfl
@[simp] theorem Part.acceptNumber_cm : (p.acceptNumber).cm = p.cm := rfl
@[simp] theorem Part.acceptNumber_rings : (p.acceptNumber).rings = p.rings := rfl
@[simp] theorem Part.acceptNumber_choice : (p.acceptNumber).choice = p.choice := rfl

/-! ### `Part.duplicate` -/

@[simp] theorem Part.duplicate_hi : (p.duplicate).hi = p.hi := rfl
@[simp] theorem Part.duplicate_streams : (p.duplicate).streams = p.streams := rfl
@[simp] theorem Part.duplicate_control : (p.duplicate).control = p.control := rfl
@[simp] theorem Part.duplicate_ib : (p.duplicate).ib = p.ib := rfl
@[simp] theorem Part.duplicate_tx : (p.duplicate).tx = p.tx := rfl
@[simp] theorem Part.duplicate_sf : (p.duplicate).sf = p.sf := rfl
@[simp] theorem Part.duplicate_dl : (p.duplicate).dl = p.dl := rfl
@[simp] theorem Part.duplicate_cq : (p.duplicate).cq = p.cq := rfl
@[simp] theorem Part.duplicate_cm : (p.duplicate).cm = p.cm := rfl
@[simp] theorem Part.duplicate_rings : (p.duplicate).rings = p.rings := rfl
@[simp] theorem Part.duplicate_choice : (p.duplicate).choice = p.choice := rfl

/-! ### `Part.number` -/

@[simp] theorem Part.number_hi (content : Content) : (p.number content).hi = p.hi := rfl
@[simp] theorem Part.number_lk (content : Content) : (p.number content).lk = p.lk := rfl
@[simp] theorem Part.number_streams (content : Content) : (p.number content).streams = p.streams := rfl
@[simp] theorem Part.number_control (content : Content) : (p.number content).control = p.control := rfl
@[simp] theorem Part.number_ib (content : Content) : (p.number content).ib = p.ib := rfl
@[simp] theorem Part.number_tx (content : Content) : (p.number content).tx = p.tx := rfl
@[simp] theorem Part.number_sf (content : Content) : (p.number content).sf = p.sf := rfl
@[simp] theorem Part.number_dl (content : Content) : (p.number content).dl = p.dl := rfl
@[simp] theorem Part.number_cq (content : Content) : (p.number content).cq = p.cq := rfl
@[simp] theorem Part.number_cm (content : Content) : (p.number content).cm = p.cm := rfl
@[simp] theorem Part.number_rings (content : Content) : (p.number content).rings = p.rings := rfl
@[simp] theorem Part.number_choice (content : Content) : (p.number content).choice = p.choice := rfl

/-! ### `Part.voidEntries` -/

@[simp] theorem Part.voidEntries_hi (c : Fin 32) : (p.voidEntries c).hi = p.hi := rfl
@[simp] theorem Part.voidEntries_lk (c : Fin 32) : (p.voidEntries c).lk = p.lk := rfl
@[simp] theorem Part.voidEntries_streams (c : Fin 32) : (p.voidEntries c).streams = p.streams := rfl
@[simp] theorem Part.voidEntries_control (c : Fin 32) : (p.voidEntries c).control = p.control := rfl
@[simp] theorem Part.voidEntries_ib (c : Fin 32) : (p.voidEntries c).ib = p.ib := rfl
@[simp] theorem Part.voidEntries_tx (c : Fin 32) : (p.voidEntries c).tx = p.tx := rfl
@[simp] theorem Part.voidEntries_sf (c : Fin 32) : (p.voidEntries c).sf = p.sf := rfl
@[simp] theorem Part.voidEntries_dl (c : Fin 32) : (p.voidEntries c).dl = p.dl := rfl
@[simp] theorem Part.voidEntries_cq (c : Fin 32) : (p.voidEntries c).cq = p.cq := rfl
@[simp] theorem Part.voidEntries_cm (c : Fin 32) : (p.voidEntries c).cm = p.cm := rfl
@[simp] theorem Part.voidEntries_rings (c : Fin 32) : (p.voidEntries c).rings = p.rings := rfl
@[simp] theorem Part.voidEntries_choice (c : Fin 32) : (p.voidEntries c).choice = p.choice := rfl

/-! ### `Part.rewindTo` -/

@[simp] theorem Part.rewindTo_hi (n : Seq) : (p.rewindTo n).hi = p.hi := rfl
@[simp] theorem Part.rewindTo_lk (n : Seq) : (p.rewindTo n).lk = p.lk := rfl
@[simp] theorem Part.rewindTo_streams (n : Seq) : (p.rewindTo n).streams = p.streams := rfl
@[simp] theorem Part.rewindTo_control (n : Seq) : (p.rewindTo n).control = p.control := rfl
@[simp] theorem Part.rewindTo_ib (n : Seq) : (p.rewindTo n).ib = p.ib := rfl
@[simp] theorem Part.rewindTo_tx (n : Seq) : (p.rewindTo n).tx = p.tx := rfl
@[simp] theorem Part.rewindTo_sf (n : Seq) : (p.rewindTo n).sf = p.sf := rfl
@[simp] theorem Part.rewindTo_dl (n : Seq) : (p.rewindTo n).dl = p.dl := rfl
@[simp] theorem Part.rewindTo_cq (n : Seq) : (p.rewindTo n).cq = p.cq := rfl
@[simp] theorem Part.rewindTo_cm (n : Seq) : (p.rewindTo n).cm = p.cm := rfl
@[simp] theorem Part.rewindTo_rings (n : Seq) : (p.rewindTo n).rings = p.rings := rfl
@[simp] theorem Part.rewindTo_choice (n : Seq) : (p.rewindTo n).choice = p.choice := rfl

/-! ### `Part.completeCommand` -/

@[simp] theorem Part.completeCommand_hi (status : Status) : (p.completeCommand status).hi = p.hi := rfl
@[simp] theorem Part.completeCommand_lk (status : Status) : (p.completeCommand status).lk = p.lk := rfl
@[simp] theorem Part.completeCommand_sq (status : Status) : (p.completeCommand status).sq = p.sq := rfl
@[simp] theorem Part.completeCommand_streams (status : Status) : (p.completeCommand status).streams = p.streams := rfl
@[simp] theorem Part.completeCommand_control (status : Status) : (p.completeCommand status).control = p.control := rfl
@[simp] theorem Part.completeCommand_ib (status : Status) : (p.completeCommand status).ib = p.ib := rfl
@[simp] theorem Part.completeCommand_tx (status : Status) : (p.completeCommand status).tx = p.tx := rfl
@[simp] theorem Part.completeCommand_sf (status : Status) : (p.completeCommand status).sf = p.sf := rfl
@[simp] theorem Part.completeCommand_dl (status : Status) : (p.completeCommand status).dl = p.dl := rfl
@[simp] theorem Part.completeCommand_cq (status : Status) : (p.completeCommand status).cq = p.cq := rfl
@[simp] theorem Part.completeCommand_rings (status : Status) : (p.completeCommand status).rings = p.rings := rfl
@[simp] theorem Part.completeCommand_choice (status : Status) : (p.completeCommand status).choice = p.choice := rfl

/-! ### `Part.removeGrant` -/

@[simp] theorem Part.removeGrant_hi (i : Fin 64) : (p.removeGrant i).hi = p.hi := rfl
@[simp] theorem Part.removeGrant_lk (i : Fin 64) : (p.removeGrant i).lk = p.lk := rfl
@[simp] theorem Part.removeGrant_sq (i : Fin 64) : (p.removeGrant i).sq = p.sq := rfl
@[simp] theorem Part.removeGrant_streams (i : Fin 64) : (p.removeGrant i).streams = p.streams := rfl
@[simp] theorem Part.removeGrant_ib (i : Fin 64) : (p.removeGrant i).ib = p.ib := rfl
@[simp] theorem Part.removeGrant_tx (i : Fin 64) : (p.removeGrant i).tx = p.tx := rfl
@[simp] theorem Part.removeGrant_sf (i : Fin 64) : (p.removeGrant i).sf = p.sf := rfl
@[simp] theorem Part.removeGrant_dl (i : Fin 64) : (p.removeGrant i).dl = p.dl := rfl
@[simp] theorem Part.removeGrant_cq (i : Fin 64) : (p.removeGrant i).cq = p.cq := rfl
@[simp] theorem Part.removeGrant_cm (i : Fin 64) : (p.removeGrant i).cm = p.cm := rfl
@[simp] theorem Part.removeGrant_rings (i : Fin 64) : (p.removeGrant i).rings = p.rings := rfl
@[simp] theorem Part.removeGrant_choice (i : Fin 64) : (p.removeGrant i).choice = p.choice := rfl

/-! ### `Part.queueWithdraw` -/

@[simp] theorem Part.queueWithdraw_hi (i : Fin 64) : (p.queueWithdraw i).hi = p.hi := rfl
@[simp] theorem Part.queueWithdraw_lk (i : Fin 64) : (p.queueWithdraw i).lk = p.lk := rfl
@[simp] theorem Part.queueWithdraw_sq (i : Fin 64) : (p.queueWithdraw i).sq = p.sq := rfl
@[simp] theorem Part.queueWithdraw_streams (i : Fin 64) : (p.queueWithdraw i).streams = p.streams := rfl
@[simp] theorem Part.queueWithdraw_ib (i : Fin 64) : (p.queueWithdraw i).ib = p.ib := rfl
@[simp] theorem Part.queueWithdraw_tx (i : Fin 64) : (p.queueWithdraw i).tx = p.tx := rfl
@[simp] theorem Part.queueWithdraw_sf (i : Fin 64) : (p.queueWithdraw i).sf = p.sf := rfl
@[simp] theorem Part.queueWithdraw_dl (i : Fin 64) : (p.queueWithdraw i).dl = p.dl := rfl
@[simp] theorem Part.queueWithdraw_cq (i : Fin 64) : (p.queueWithdraw i).cq = p.cq := rfl
@[simp] theorem Part.queueWithdraw_cm (i : Fin 64) : (p.queueWithdraw i).cm = p.cm := rfl
@[simp] theorem Part.queueWithdraw_rings (i : Fin 64) : (p.queueWithdraw i).rings = p.rings := rfl
@[simp] theorem Part.queueWithdraw_choice (i : Fin 64) : (p.queueWithdraw i).choice = p.choice := rfl

/-! ### `Part.reserve` -/

@[simp] theorem Part.reserve_hi (i : Fin 64) (allotment returnBatch : Nat) :
    (p.reserve i allotment returnBatch).hi = p.hi := rfl
@[simp] theorem Part.reserve_lk (i : Fin 64) (allotment returnBatch : Nat) :
    (p.reserve i allotment returnBatch).lk = p.lk := rfl
@[simp] theorem Part.reserve_sq (i : Fin 64) (allotment returnBatch : Nat) :
    (p.reserve i allotment returnBatch).sq = p.sq := rfl
@[simp] theorem Part.reserve_control (i : Fin 64) (allotment returnBatch : Nat) :
    (p.reserve i allotment returnBatch).control = p.control := rfl
@[simp] theorem Part.reserve_tx (i : Fin 64) (allotment returnBatch : Nat) :
    (p.reserve i allotment returnBatch).tx = p.tx := rfl
@[simp] theorem Part.reserve_sf (i : Fin 64) (allotment returnBatch : Nat) :
    (p.reserve i allotment returnBatch).sf = p.sf := rfl
@[simp] theorem Part.reserve_dl (i : Fin 64) (allotment returnBatch : Nat) :
    (p.reserve i allotment returnBatch).dl = p.dl := rfl
@[simp] theorem Part.reserve_cq (i : Fin 64) (allotment returnBatch : Nat) :
    (p.reserve i allotment returnBatch).cq = p.cq := rfl
@[simp] theorem Part.reserve_cm (i : Fin 64) (allotment returnBatch : Nat) :
    (p.reserve i allotment returnBatch).cm = p.cm := rfl
@[simp] theorem Part.reserve_rings (i : Fin 64) (allotment returnBatch : Nat) :
    (p.reserve i allotment returnBatch).rings = p.rings := rfl
@[simp] theorem Part.reserve_choice (i : Fin 64) (allotment returnBatch : Nat) :
    (p.reserve i allotment returnBatch).choice = p.choice := rfl

/-! ### `Part.release` -/

@[simp] theorem Part.release_hi (i : Fin 64) : (p.release i).hi = p.hi := rfl
@[simp] theorem Part.release_lk (i : Fin 64) : (p.release i).lk = p.lk := rfl
@[simp] theorem Part.release_sq (i : Fin 64) : (p.release i).sq = p.sq := rfl
@[simp] theorem Part.release_control (i : Fin 64) : (p.release i).control = p.control := rfl
@[simp] theorem Part.release_tx (i : Fin 64) : (p.release i).tx = p.tx := rfl
@[simp] theorem Part.release_sf (i : Fin 64) : (p.release i).sf = p.sf := rfl
@[simp] theorem Part.release_dl (i : Fin 64) : (p.release i).dl = p.dl := rfl
@[simp] theorem Part.release_cq (i : Fin 64) : (p.release i).cq = p.cq := rfl
@[simp] theorem Part.release_cm (i : Fin 64) : (p.release i).cm = p.cm := rfl
@[simp] theorem Part.release_rings (i : Fin 64) : (p.release i).rings = p.rings := rfl
@[simp] theorem Part.release_choice (i : Fin 64) : (p.release i).choice = p.choice := rfl

/-! ### `Part.discardQueue` -/

@[simp] theorem Part.discardQueue_hi (i : Fin 64) : (p.discardQueue i).hi = p.hi := rfl
@[simp] theorem Part.discardQueue_lk (i : Fin 64) : (p.discardQueue i).lk = p.lk := rfl
@[simp] theorem Part.discardQueue_sq (i : Fin 64) : (p.discardQueue i).sq = p.sq := rfl
@[simp] theorem Part.discardQueue_control (i : Fin 64) : (p.discardQueue i).control = p.control := rfl
@[simp] theorem Part.discardQueue_tx (i : Fin 64) : (p.discardQueue i).tx = p.tx := rfl
@[simp] theorem Part.discardQueue_sf (i : Fin 64) : (p.discardQueue i).sf = p.sf := rfl
@[simp] theorem Part.discardQueue_dl (i : Fin 64) : (p.discardQueue i).dl = p.dl := rfl
@[simp] theorem Part.discardQueue_cq (i : Fin 64) : (p.discardQueue i).cq = p.cq := rfl
@[simp] theorem Part.discardQueue_cm (i : Fin 64) : (p.discardQueue i).cm = p.cm := rfl
@[simp] theorem Part.discardQueue_rings (i : Fin 64) : (p.discardQueue i).rings = p.rings := rfl
@[simp] theorem Part.discardQueue_choice (i : Fin 64) : (p.discardQueue i).choice = p.choice := rfl

/-! ### `Part.appendInbound` -/

@[simp] theorem Part.appendInbound_hi (i : Fin 64) (e : InboundEntry) : (p.appendInbound i e).hi = p.hi := rfl
@[simp] theorem Part.appendInbound_lk (i : Fin 64) (e : InboundEntry) : (p.appendInbound i e).lk = p.lk := rfl
@[simp] theorem Part.appendInbound_sq (i : Fin 64) (e : InboundEntry) : (p.appendInbound i e).sq = p.sq := rfl
@[simp] theorem Part.appendInbound_streams (i : Fin 64) (e : InboundEntry) :
    (p.appendInbound i e).streams = p.streams := rfl
@[simp] theorem Part.appendInbound_control (i : Fin 64) (e : InboundEntry) :
    (p.appendInbound i e).control = p.control := rfl
@[simp] theorem Part.appendInbound_tx (i : Fin 64) (e : InboundEntry) : (p.appendInbound i e).tx = p.tx := rfl
@[simp] theorem Part.appendInbound_sf (i : Fin 64) (e : InboundEntry) : (p.appendInbound i e).sf = p.sf := rfl
@[simp] theorem Part.appendInbound_dl (i : Fin 64) (e : InboundEntry) : (p.appendInbound i e).dl = p.dl := rfl
@[simp] theorem Part.appendInbound_cq (i : Fin 64) (e : InboundEntry) : (p.appendInbound i e).cq = p.cq := rfl
@[simp] theorem Part.appendInbound_cm (i : Fin 64) (e : InboundEntry) : (p.appendInbound i e).cm = p.cm := rfl
@[simp] theorem Part.appendInbound_rings (i : Fin 64) (e : InboundEntry) :
    (p.appendInbound i e).rings = p.rings := rfl
@[simp] theorem Part.appendInbound_choice (i : Fin 64) (e : InboundEntry) :
    (p.appendInbound i e).choice = p.choice := rfl

/-! ### `Part.completeContext` -/

@[simp] theorem Part.completeContext_hi (c : Fin 32) (outcome : Status) :
    (p.completeContext c outcome).hi = p.hi := rfl
@[simp] theorem Part.completeContext_lk (c : Fin 32) (outcome : Status) :
    (p.completeContext c outcome).lk = p.lk := rfl
@[simp] theorem Part.completeContext_sq (c : Fin 32) (outcome : Status) :
    (p.completeContext c outcome).sq = p.sq := rfl
@[simp] theorem Part.completeContext_streams (c : Fin 32) (outcome : Status) :
    (p.completeContext c outcome).streams = p.streams := rfl
@[simp] theorem Part.completeContext_control (c : Fin 32) (outcome : Status) :
    (p.completeContext c outcome).control = p.control := rfl
@[simp] theorem Part.completeContext_ib (c : Fin 32) (outcome : Status) :
    (p.completeContext c outcome).ib = p.ib := rfl
@[simp] theorem Part.completeContext_tx (c : Fin 32) (outcome : Status) :
    (p.completeContext c outcome).tx = p.tx := rfl
@[simp] theorem Part.completeContext_dl (c : Fin 32) (outcome : Status) :
    (p.completeContext c outcome).dl = p.dl := rfl
@[simp] theorem Part.completeContext_cq (c : Fin 32) (outcome : Status) :
    (p.completeContext c outcome).cq = p.cq := rfl
@[simp] theorem Part.completeContext_cm (c : Fin 32) (outcome : Status) :
    (p.completeContext c outcome).cm = p.cm := rfl
@[simp] theorem Part.completeContext_rings (c : Fin 32) (outcome : Status) :
    (p.completeContext c outcome).rings = p.rings := rfl
@[simp] theorem Part.completeContext_choice (c : Fin 32) (outcome : Status) :
    (p.completeContext c outcome).choice = p.choice := rfl

/-! ### `Part.joinFetchOrder` -/

@[simp] theorem Part.joinFetchOrder_hi (c : Fin 32) : (p.joinFetchOrder c).hi = p.hi := rfl
@[simp] theorem Part.joinFetchOrder_lk (c : Fin 32) : (p.joinFetchOrder c).lk = p.lk := rfl
@[simp] theorem Part.joinFetchOrder_sq (c : Fin 32) : (p.joinFetchOrder c).sq = p.sq := rfl
@[simp] theorem Part.joinFetchOrder_streams (c : Fin 32) : (p.joinFetchOrder c).streams = p.streams := rfl
@[simp] theorem Part.joinFetchOrder_control (c : Fin 32) : (p.joinFetchOrder c).control = p.control := rfl
@[simp] theorem Part.joinFetchOrder_ib (c : Fin 32) : (p.joinFetchOrder c).ib = p.ib := rfl
@[simp] theorem Part.joinFetchOrder_tx (c : Fin 32) : (p.joinFetchOrder c).tx = p.tx := rfl
@[simp] theorem Part.joinFetchOrder_dl (c : Fin 32) : (p.joinFetchOrder c).dl = p.dl := rfl
@[simp] theorem Part.joinFetchOrder_cq (c : Fin 32) : (p.joinFetchOrder c).cq = p.cq := rfl
@[simp] theorem Part.joinFetchOrder_cm (c : Fin 32) : (p.joinFetchOrder c).cm = p.cm := rfl
@[simp] theorem Part.joinFetchOrder_rings (c : Fin 32) : (p.joinFetchOrder c).rings = p.rings := rfl
@[simp] theorem Part.joinFetchOrder_choice (c : Fin 32) : (p.joinFetchOrder c).choice = p.choice := rfl

/-! ### `Part.countTurn` -/

@[simp] theorem Part.countTurn_hi (r : Fin 4) : (p.countTurn r).hi = p.hi := rfl
@[simp] theorem Part.countTurn_lk (r : Fin 4) : (p.countTurn r).lk = p.lk := rfl
@[simp] theorem Part.countTurn_sq (r : Fin 4) : (p.countTurn r).sq = p.sq := rfl
@[simp] theorem Part.countTurn_streams (r : Fin 4) : (p.countTurn r).streams = p.streams := rfl
@[simp] theorem Part.countTurn_control (r : Fin 4) : (p.countTurn r).control = p.control := rfl
@[simp] theorem Part.countTurn_ib (r : Fin 4) : (p.countTurn r).ib = p.ib := rfl
@[simp] theorem Part.countTurn_sf (r : Fin 4) : (p.countTurn r).sf = p.sf := rfl
@[simp] theorem Part.countTurn_dl (r : Fin 4) : (p.countTurn r).dl = p.dl := rfl
@[simp] theorem Part.countTurn_cq (r : Fin 4) : (p.countTurn r).cq = p.cq := rfl
@[simp] theorem Part.countTurn_cm (r : Fin 4) : (p.countTurn r).cm = p.cm := rfl
@[simp] theorem Part.countTurn_rings (r : Fin 4) : (p.countTurn r).rings = p.rings := rfl
@[simp] theorem Part.countTurn_choice (r : Fin 4) : (p.countTurn r).choice = p.choice := rfl

/-! ### `Part.updateGap` -/

@[simp] theorem Part.updateGap_hi (r : Fin 8) : (p.updateGap r).hi = p.hi := rfl
@[simp] theorem Part.updateGap_lk (r : Fin 8) : (p.updateGap r).lk = p.lk := rfl
@[simp] theorem Part.updateGap_sq (r : Fin 8) : (p.updateGap r).sq = p.sq := rfl
@[simp] theorem Part.updateGap_streams (r : Fin 8) : (p.updateGap r).streams = p.streams := rfl
@[simp] theorem Part.updateGap_control (r : Fin 8) : (p.updateGap r).control = p.control := rfl
@[simp] theorem Part.updateGap_ib (r : Fin 8) : (p.updateGap r).ib = p.ib := rfl
@[simp] theorem Part.updateGap_tx (r : Fin 8) : (p.updateGap r).tx = p.tx := rfl
@[simp] theorem Part.updateGap_sf (r : Fin 8) : (p.updateGap r).sf = p.sf := rfl
@[simp] theorem Part.updateGap_cq (r : Fin 8) : (p.updateGap r).cq = p.cq := rfl
@[simp] theorem Part.updateGap_cm (r : Fin 8) : (p.updateGap r).cm = p.cm := rfl
@[simp] theorem Part.updateGap_rings (r : Fin 8) : (p.updateGap r).rings = p.rings := rfl
@[simp] theorem Part.updateGap_choice (r : Fin 8) : (p.updateGap r).choice = p.choice := rfl

/-! ### `Part.postMessage` -/

@[simp] theorem Part.postMessage_hi (r : Fin 8) (m : MessageCompletion) : (p.postMessage r m).hi = p.hi := rfl
@[simp] theorem Part.postMessage_lk (r : Fin 8) (m : MessageCompletion) : (p.postMessage r m).lk = p.lk := rfl
@[simp] theorem Part.postMessage_sq (r : Fin 8) (m : MessageCompletion) : (p.postMessage r m).sq = p.sq := rfl
@[simp] theorem Part.postMessage_streams (r : Fin 8) (m : MessageCompletion) :
    (p.postMessage r m).streams = p.streams := rfl
@[simp] theorem Part.postMessage_control (r : Fin 8) (m : MessageCompletion) :
    (p.postMessage r m).control = p.control := rfl
@[simp] theorem Part.postMessage_ib (r : Fin 8) (m : MessageCompletion) : (p.postMessage r m).ib = p.ib := rfl
@[simp] theorem Part.postMessage_tx (r : Fin 8) (m : MessageCompletion) : (p.postMessage r m).tx = p.tx := rfl
@[simp] theorem Part.postMessage_sf (r : Fin 8) (m : MessageCompletion) : (p.postMessage r m).sf = p.sf := rfl
@[simp] theorem Part.postMessage_cq (r : Fin 8) (m : MessageCompletion) : (p.postMessage r m).cq = p.cq := rfl
@[simp] theorem Part.postMessage_cm (r : Fin 8) (m : MessageCompletion) : (p.postMessage r m).cm = p.cm := rfl
@[simp] theorem Part.postMessage_rings (r : Fin 8) (m : MessageCompletion) :
    (p.postMessage r m).rings = p.rings := rfl
@[simp] theorem Part.postMessage_choice (r : Fin 8) (m : MessageCompletion) :
    (p.postMessage r m).choice = p.choice := rfl

/-! ### `Part.endMessage` -/

@[simp] theorem Part.endMessage_hi (i : Fin 64) (status : Status) (mode : Mode) :
    (p.endMessage i status mode).hi = p.hi := rfl
@[simp] theorem Part.endMessage_lk (i : Fin 64) (status : Status) (mode : Mode) :
    (p.endMessage i status mode).lk = p.lk := rfl
@[simp] theorem Part.endMessage_sq (i : Fin 64) (status : Status) (mode : Mode) :
    (p.endMessage i status mode).sq = p.sq := rfl
@[simp] theorem Part.endMessage_control (i : Fin 64) (status : Status) (mode : Mode) :
    (p.endMessage i status mode).control = p.control := rfl
@[simp] theorem Part.endMessage_ib (i : Fin 64) (status : Status) (mode : Mode) :
    (p.endMessage i status mode).ib = p.ib := rfl
@[simp] theorem Part.endMessage_tx (i : Fin 64) (status : Status) (mode : Mode) :
    (p.endMessage i status mode).tx = p.tx := rfl
@[simp] theorem Part.endMessage_sf (i : Fin 64) (status : Status) (mode : Mode) :
    (p.endMessage i status mode).sf = p.sf := rfl
@[simp] theorem Part.endMessage_cq (i : Fin 64) (status : Status) (mode : Mode) :
    (p.endMessage i status mode).cq = p.cq := rfl
@[simp] theorem Part.endMessage_cm (i : Fin 64) (status : Status) (mode : Mode) :
    (p.endMessage i status mode).cm = p.cm := rfl
@[simp] theorem Part.endMessage_rings (i : Fin 64) (status : Status) (mode : Mode) :
    (p.endMessage i status mode).rings = p.rings := rfl
@[simp] theorem Part.endMessage_choice (i : Fin 64) (status : Status) (mode : Mode) :
    (p.endMessage i status mode).choice = p.choice := rfl

/-! ### `Part.removeHead` -/

@[simp] theorem Part.removeHead_hi (i : Fin 64) : (p.removeHead i).hi = p.hi := rfl
@[simp] theorem Part.removeHead_lk (i : Fin 64) : (p.removeHead i).lk = p.lk := rfl
@[simp] theorem Part.removeHead_sq (i : Fin 64) : (p.removeHead i).sq = p.sq := rfl
@[simp] theorem Part.removeHead_streams (i : Fin 64) : (p.removeHead i).streams = p.streams := rfl
@[simp] theorem Part.removeHead_control (i : Fin 64) : (p.removeHead i).control = p.control := rfl
@[simp] theorem Part.removeHead_tx (i : Fin 64) : (p.removeHead i).tx = p.tx := rfl
@[simp] theorem Part.removeHead_sf (i : Fin 64) : (p.removeHead i).sf = p.sf := rfl
@[simp] theorem Part.removeHead_dl (i : Fin 64) : (p.removeHead i).dl = p.dl := rfl
@[simp] theorem Part.removeHead_cq (i : Fin 64) : (p.removeHead i).cq = p.cq := rfl
@[simp] theorem Part.removeHead_cm (i : Fin 64) : (p.removeHead i).cm = p.cm := rfl
@[simp] theorem Part.removeHead_rings (i : Fin 64) : (p.removeHead i).rings = p.rings := rfl
@[simp] theorem Part.removeHead_choice (i : Fin 64) : (p.removeHead i).choice = p.choice := rfl

/-! ### `Part.beginMessage` -/

@[simp] theorem Part.beginMessage_hi (i : Fin 64) (mark : BitVec 16) : (p.beginMessage i mark).hi = p.hi := rfl
@[simp] theorem Part.beginMessage_lk (i : Fin 64) (mark : BitVec 16) : (p.beginMessage i mark).lk = p.lk := rfl
@[simp] theorem Part.beginMessage_sq (i : Fin 64) (mark : BitVec 16) : (p.beginMessage i mark).sq = p.sq := rfl
@[simp] theorem Part.beginMessage_control (i : Fin 64) (mark : BitVec 16) :
    (p.beginMessage i mark).control = p.control := rfl
@[simp] theorem Part.beginMessage_ib (i : Fin 64) (mark : BitVec 16) : (p.beginMessage i mark).ib = p.ib := rfl
@[simp] theorem Part.beginMessage_tx (i : Fin 64) (mark : BitVec 16) : (p.beginMessage i mark).tx = p.tx := rfl
@[simp] theorem Part.beginMessage_sf (i : Fin 64) (mark : BitVec 16) : (p.beginMessage i mark).sf = p.sf := rfl
@[simp] theorem Part.beginMessage_dl (i : Fin 64) (mark : BitVec 16) : (p.beginMessage i mark).dl = p.dl := rfl
@[simp] theorem Part.beginMessage_cq (i : Fin 64) (mark : BitVec 16) : (p.beginMessage i mark).cq = p.cq := rfl
@[simp] theorem Part.beginMessage_cm (i : Fin 64) (mark : BitVec 16) : (p.beginMessage i mark).cm = p.cm := rfl
@[simp] theorem Part.beginMessage_rings (i : Fin 64) (mark : BitVec 16) :
    (p.beginMessage i mark).rings = p.rings := rfl
@[simp] theorem Part.beginMessage_choice (i : Fin 64) (mark : BitVec 16) :
    (p.beginMessage i mark).choice = p.choice := rfl

/-! ### `Part.setMode` -/

@[simp] theorem Part.setMode_hi (i : Fin 64) (mode : Mode) : (p.setMode i mode).hi = p.hi := rfl
@[simp] theorem Part.setMode_lk (i : Fin 64) (mode : Mode) : (p.setMode i mode).lk = p.lk := rfl
@[simp] theorem Part.setMode_sq (i : Fin 64) (mode : Mode) : (p.setMode i mode).sq = p.sq := rfl
@[simp] theorem Part.setMode_control (i : Fin 64) (mode : Mode) : (p.setMode i mode).control = p.control := rfl
@[simp] theorem Part.setMode_ib (i : Fin 64) (mode : Mode) : (p.setMode i mode).ib = p.ib := rfl
@[simp] theorem Part.setMode_tx (i : Fin 64) (mode : Mode) : (p.setMode i mode).tx = p.tx := rfl
@[simp] theorem Part.setMode_sf (i : Fin 64) (mode : Mode) : (p.setMode i mode).sf = p.sf := rfl
@[simp] theorem Part.setMode_dl (i : Fin 64) (mode : Mode) : (p.setMode i mode).dl = p.dl := rfl
@[simp] theorem Part.setMode_cq (i : Fin 64) (mode : Mode) : (p.setMode i mode).cq = p.cq := rfl
@[simp] theorem Part.setMode_cm (i : Fin 64) (mode : Mode) : (p.setMode i mode).cm = p.cm := rfl
@[simp] theorem Part.setMode_rings (i : Fin 64) (mode : Mode) : (p.setMode i mode).rings = p.rings := rfl
@[simp] theorem Part.setMode_choice (i : Fin 64) (mode : Mode) : (p.setMode i mode).choice = p.choice := rfl

/-! ### `Part.beginWrite` -/

@[simp] theorem Part.beginWrite_lk (record : Record) : (p.beginWrite record).lk = p.lk := rfl
@[simp] theorem Part.beginWrite_sq (record : Record) : (p.beginWrite record).sq = p.sq := rfl
@[simp] theorem Part.beginWrite_streams (record : Record) : (p.beginWrite record).streams = p.streams := rfl
@[simp] theorem Part.beginWrite_control (record : Record) : (p.beginWrite record).control = p.control := rfl
@[simp] theorem Part.beginWrite_ib (record : Record) : (p.beginWrite record).ib = p.ib := rfl
@[simp] theorem Part.beginWrite_tx (record : Record) : (p.beginWrite record).tx = p.tx := rfl
@[simp] theorem Part.beginWrite_sf (record : Record) : (p.beginWrite record).sf = p.sf := rfl
@[simp] theorem Part.beginWrite_dl (record : Record) : (p.beginWrite record).dl = p.dl := rfl
@[simp] theorem Part.beginWrite_cm (record : Record) : (p.beginWrite record).cm = p.cm := rfl
@[simp] theorem Part.beginWrite_rings (record : Record) : (p.beginWrite record).rings = p.rings := rfl
@[simp] theorem Part.beginWrite_choice (record : Record) : (p.beginWrite record).choice = p.choice := rfl

/-! ### `Part.announce` -/

@[simp] theorem Part.announce_lk : (p.announce).lk = p.lk := rfl
@[simp] theorem Part.announce_sq : (p.announce).sq = p.sq := rfl
@[simp] theorem Part.announce_streams : (p.announce).streams = p.streams := rfl
@[simp] theorem Part.announce_control : (p.announce).control = p.control := rfl
@[simp] theorem Part.announce_ib : (p.announce).ib = p.ib := rfl
@[simp] theorem Part.announce_tx : (p.announce).tx = p.tx := rfl
@[simp] theorem Part.announce_sf : (p.announce).sf = p.sf := rfl
@[simp] theorem Part.announce_dl : (p.announce).dl = p.dl := rfl
@[simp] theorem Part.announce_cm : (p.announce).cm = p.cm := rfl
@[simp] theorem Part.announce_rings : (p.announce).rings = p.rings := rfl
@[simp] theorem Part.announce_choice : (p.announce).choice = p.choice := rfl

/-! ### `Part.transmit` -/

@[simp] theorem Part.transmit_hi (parcel : Parcel) : (p.transmit parcel).hi = p.hi := rfl
@[simp] theorem Part.transmit_sq (parcel : Parcel) : (p.transmit parcel).sq = p.sq := rfl
@[simp] theorem Part.transmit_streams (parcel : Parcel) : (p.transmit parcel).streams = p.streams := rfl
@[simp] theorem Part.transmit_control (parcel : Parcel) : (p.transmit parcel).control = p.control := rfl
@[simp] theorem Part.transmit_ib (parcel : Parcel) : (p.transmit parcel).ib = p.ib := rfl
@[simp] theorem Part.transmit_tx (parcel : Parcel) : (p.transmit parcel).tx = p.tx := rfl
@[simp] theorem Part.transmit_sf (parcel : Parcel) : (p.transmit parcel).sf = p.sf := rfl
@[simp] theorem Part.transmit_dl (parcel : Parcel) : (p.transmit parcel).dl = p.dl := rfl
@[simp] theorem Part.transmit_cq (parcel : Parcel) : (p.transmit parcel).cq = p.cq := rfl
@[simp] theorem Part.transmit_cm (parcel : Parcel) : (p.transmit parcel).cm = p.cm := rfl
@[simp] theorem Part.transmit_rings (parcel : Parcel) : (p.transmit parcel).rings = p.rings := rfl
@[simp] theorem Part.transmit_choice (parcel : Parcel) : (p.transmit parcel).choice = p.choice := rfl

/-! ### `Part.beginSnapshot` -/

@[simp] theorem Part.beginSnapshot_lk (address : Addr) (bytes : List Byte) :
    (p.beginSnapshot address bytes).lk = p.lk := rfl
@[simp] theorem Part.beginSnapshot_sq (address : Addr) (bytes : List Byte) :
    (p.beginSnapshot address bytes).sq = p.sq := rfl
@[simp] theorem Part.beginSnapshot_streams (address : Addr) (bytes : List Byte) :
    (p.beginSnapshot address bytes).streams = p.streams := rfl
@[simp] theorem Part.beginSnapshot_control (address : Addr) (bytes : List Byte) :
    (p.beginSnapshot address bytes).control = p.control := rfl
@[simp] theorem Part.beginSnapshot_ib (address : Addr) (bytes : List Byte) :
    (p.beginSnapshot address bytes).ib = p.ib := rfl
@[simp] theorem Part.beginSnapshot_tx (address : Addr) (bytes : List Byte) :
    (p.beginSnapshot address bytes).tx = p.tx := rfl
@[simp] theorem Part.beginSnapshot_sf (address : Addr) (bytes : List Byte) :
    (p.beginSnapshot address bytes).sf = p.sf := rfl
@[simp] theorem Part.beginSnapshot_dl (address : Addr) (bytes : List Byte) :
    (p.beginSnapshot address bytes).dl = p.dl := rfl
@[simp] theorem Part.beginSnapshot_cq (address : Addr) (bytes : List Byte) :
    (p.beginSnapshot address bytes).cq = p.cq := rfl
@[simp] theorem Part.beginSnapshot_rings (address : Addr) (bytes : List Byte) :
    (p.beginSnapshot address bytes).rings = p.rings := rfl
@[simp] theorem Part.beginSnapshot_choice (address : Addr) (bytes : List Byte) :
    (p.beginSnapshot address bytes).choice = p.choice := rfl

/-! ### `Part.beginSequencing` -/

@[simp] theorem Part.beginSequencing_hi : (p.beginSequencing).hi = p.hi := rfl
@[simp] theorem Part.beginSequencing_lk : (p.beginSequencing).lk = p.lk := rfl
@[simp] theorem Part.beginSequencing_streams : (p.beginSequencing).streams = p.streams := rfl
@[simp] theorem Part.beginSequencing_control : (p.beginSequencing).control = p.control := rfl
@[simp] theorem Part.beginSequencing_ib : (p.beginSequencing).ib = p.ib := rfl
@[simp] theorem Part.beginSequencing_tx : (p.beginSequencing).tx = p.tx := rfl
@[simp] theorem Part.beginSequencing_sf : (p.beginSequencing).sf = p.sf := rfl
@[simp] theorem Part.beginSequencing_dl : (p.beginSequencing).dl = p.dl := rfl
@[simp] theorem Part.beginSequencing_cq : (p.beginSequencing).cq = p.cq := rfl
@[simp] theorem Part.beginSequencing_cm : (p.beginSequencing).cm = p.cm := rfl
@[simp] theorem Part.beginSequencing_rings : (p.beginSequencing).rings = p.rings := rfl
@[simp] theorem Part.beginSequencing_choice : (p.beginSequencing).choice = p.choice := rfl

/-! ### `Part.teardownSequencing` -/

@[simp] theorem Part.teardownSequencing_hi : (p.teardownSequencing).hi = p.hi := rfl
@[simp] theorem Part.teardownSequencing_lk : (p.teardownSequencing).lk = p.lk := rfl
@[simp] theorem Part.teardownSequencing_streams : (p.teardownSequencing).streams = p.streams := rfl
@[simp] theorem Part.teardownSequencing_control : (p.teardownSequencing).control = p.control := rfl
@[simp] theorem Part.teardownSequencing_ib : (p.teardownSequencing).ib = p.ib := rfl
@[simp] theorem Part.teardownSequencing_tx : (p.teardownSequencing).tx = p.tx := rfl
@[simp] theorem Part.teardownSequencing_sf : (p.teardownSequencing).sf = p.sf := rfl
@[simp] theorem Part.teardownSequencing_dl : (p.teardownSequencing).dl = p.dl := rfl
@[simp] theorem Part.teardownSequencing_cq : (p.teardownSequencing).cq = p.cq := rfl
@[simp] theorem Part.teardownSequencing_cm : (p.teardownSequencing).cm = p.cm := rfl
@[simp] theorem Part.teardownSequencing_rings : (p.teardownSequencing).rings = p.rings := rfl
@[simp] theorem Part.teardownSequencing_choice : (p.teardownSequencing).choice = p.choice := rfl

/-! ### `Part.enterHello` -/

@[simp] theorem Part.enterHello_hi : (p.enterHello).hi = p.hi := rfl
@[simp] theorem Part.enterHello_sq : (p.enterHello).sq = p.sq := rfl
@[simp] theorem Part.enterHello_streams : (p.enterHello).streams = p.streams := rfl
@[simp] theorem Part.enterHello_control : (p.enterHello).control = p.control := rfl
@[simp] theorem Part.enterHello_ib : (p.enterHello).ib = p.ib := rfl
@[simp] theorem Part.enterHello_tx : (p.enterHello).tx = p.tx := rfl
@[simp] theorem Part.enterHello_sf : (p.enterHello).sf = p.sf := rfl
@[simp] theorem Part.enterHello_dl : (p.enterHello).dl = p.dl := rfl
@[simp] theorem Part.enterHello_cq : (p.enterHello).cq = p.cq := rfl
@[simp] theorem Part.enterHello_cm : (p.enterHello).cm = p.cm := rfl
@[simp] theorem Part.enterHello_rings : (p.enterHello).rings = p.rings := rfl
@[simp] theorem Part.enterHello_choice : (p.enterHello).choice = p.choice := rfl

/-! ### `Part.enterAwaitSignal` -/

@[simp] theorem Part.enterAwaitSignal_hi : (p.enterAwaitSignal).hi = p.hi := rfl
@[simp] theorem Part.enterAwaitSignal_sq : (p.enterAwaitSignal).sq = p.sq := rfl
@[simp] theorem Part.enterAwaitSignal_streams : (p.enterAwaitSignal).streams = p.streams := rfl
@[simp] theorem Part.enterAwaitSignal_control : (p.enterAwaitSignal).control = p.control := rfl
@[simp] theorem Part.enterAwaitSignal_ib : (p.enterAwaitSignal).ib = p.ib := rfl
@[simp] theorem Part.enterAwaitSignal_tx : (p.enterAwaitSignal).tx = p.tx := rfl
@[simp] theorem Part.enterAwaitSignal_sf : (p.enterAwaitSignal).sf = p.sf := rfl
@[simp] theorem Part.enterAwaitSignal_dl : (p.enterAwaitSignal).dl = p.dl := rfl
@[simp] theorem Part.enterAwaitSignal_cq : (p.enterAwaitSignal).cq = p.cq := rfl
@[simp] theorem Part.enterAwaitSignal_cm : (p.enterAwaitSignal).cm = p.cm := rfl
@[simp] theorem Part.enterAwaitSignal_rings : (p.enterAwaitSignal).rings = p.rings := rfl
@[simp] theorem Part.enterAwaitSignal_choice : (p.enterAwaitSignal).choice = p.choice := rfl

/-! ### `Part.enterHoldoff` -/

@[simp] theorem Part.enterHoldoff_hi : (p.enterHoldoff).hi = p.hi := rfl
@[simp] theorem Part.enterHoldoff_sq : (p.enterHoldoff).sq = p.sq := rfl
@[simp] theorem Part.enterHoldoff_streams : (p.enterHoldoff).streams = p.streams := rfl
@[simp] theorem Part.enterHoldoff_control : (p.enterHoldoff).control = p.control := rfl
@[simp] theorem Part.enterHoldoff_ib : (p.enterHoldoff).ib = p.ib := rfl
@[simp] theorem Part.enterHoldoff_tx : (p.enterHoldoff).tx = p.tx := rfl
@[simp] theorem Part.enterHoldoff_sf : (p.enterHoldoff).sf = p.sf := rfl
@[simp] theorem Part.enterHoldoff_dl : (p.enterHoldoff).dl = p.dl := rfl
@[simp] theorem Part.enterHoldoff_cq : (p.enterHoldoff).cq = p.cq := rfl
@[simp] theorem Part.enterHoldoff_cm : (p.enterHoldoff).cm = p.cm := rfl
@[simp] theorem Part.enterHoldoff_rings : (p.enterHoldoff).rings = p.rings := rfl
@[simp] theorem Part.enterHoldoff_choice : (p.enterHoldoff).choice = p.choice := rfl

/-! ### `Part.enterUp` -/

@[simp] theorem Part.enterUp_hi : (p.enterUp).hi = p.hi := rfl
@[simp] theorem Part.enterUp_streams : (p.enterUp).streams = p.streams := rfl
@[simp] theorem Part.enterUp_control : (p.enterUp).control = p.control := rfl
@[simp] theorem Part.enterUp_ib : (p.enterUp).ib = p.ib := rfl
@[simp] theorem Part.enterUp_tx : (p.enterUp).tx = p.tx := rfl
@[simp] theorem Part.enterUp_sf : (p.enterUp).sf = p.sf := rfl
@[simp] theorem Part.enterUp_dl : (p.enterUp).dl = p.dl := rfl
@[simp] theorem Part.enterUp_cq : (p.enterUp).cq = p.cq := rfl
@[simp] theorem Part.enterUp_cm : (p.enterUp).cm = p.cm := rfl
@[simp] theorem Part.enterUp_rings : (p.enterUp).rings = p.rings := rfl
@[simp] theorem Part.enterUp_choice : (p.enterUp).choice = p.choice := rfl

/-! ### `Part.recordHello` -/

@[simp] theorem Part.recordHello_hi (h : HelloParcel) : (p.recordHello h).hi = p.hi := rfl
@[simp] theorem Part.recordHello_sq (h : HelloParcel) : (p.recordHello h).sq = p.sq := rfl
@[simp] theorem Part.recordHello_streams (h : HelloParcel) : (p.recordHello h).streams = p.streams := rfl
@[simp] theorem Part.recordHello_control (h : HelloParcel) : (p.recordHello h).control = p.control := rfl
@[simp] theorem Part.recordHello_ib (h : HelloParcel) : (p.recordHello h).ib = p.ib := rfl
@[simp] theorem Part.recordHello_tx (h : HelloParcel) : (p.recordHello h).tx = p.tx := rfl
@[simp] theorem Part.recordHello_sf (h : HelloParcel) : (p.recordHello h).sf = p.sf := rfl
@[simp] theorem Part.recordHello_dl (h : HelloParcel) : (p.recordHello h).dl = p.dl := rfl
@[simp] theorem Part.recordHello_cq (h : HelloParcel) : (p.recordHello h).cq = p.cq := rfl
@[simp] theorem Part.recordHello_cm (h : HelloParcel) : (p.recordHello h).cm = p.cm := rfl
@[simp] theorem Part.recordHello_rings (h : HelloParcel) : (p.recordHello h).rings = p.rings := rfl
@[simp] theorem Part.recordHello_choice (h : HelloParcel) : (p.recordHello h).choice = p.choice := rfl

/-! ### `Part.modConsumer` -/

@[simp] theorem Part.modConsumer_hi (ring : RingId) (g : ConsumerRing → ConsumerRing) :
    (p.modConsumer ring g).hi = p.hi := by cases ring <;> rfl
@[simp] theorem Part.modConsumer_lk (ring : RingId) (g : ConsumerRing → ConsumerRing) :
    (p.modConsumer ring g).lk = p.lk := by cases ring <;> rfl
@[simp] theorem Part.modConsumer_sq (ring : RingId) (g : ConsumerRing → ConsumerRing) :
    (p.modConsumer ring g).sq = p.sq := by cases ring <;> rfl
@[simp] theorem Part.modConsumer_streams (ring : RingId) (g : ConsumerRing → ConsumerRing) :
    (p.modConsumer ring g).streams = p.streams := by cases ring <;> rfl
@[simp] theorem Part.modConsumer_control (ring : RingId) (g : ConsumerRing → ConsumerRing) :
    (p.modConsumer ring g).control = p.control := by cases ring <;> rfl
@[simp] theorem Part.modConsumer_ib (ring : RingId) (g : ConsumerRing → ConsumerRing) :
    (p.modConsumer ring g).ib = p.ib := by cases ring <;> rfl
@[simp] theorem Part.modConsumer_tx (ring : RingId) (g : ConsumerRing → ConsumerRing) :
    (p.modConsumer ring g).tx = p.tx := by cases ring <;> rfl
@[simp] theorem Part.modConsumer_sf (ring : RingId) (g : ConsumerRing → ConsumerRing) :
    (p.modConsumer ring g).sf = p.sf := by cases ring <;> rfl
@[simp] theorem Part.modConsumer_dl (ring : RingId) (g : ConsumerRing → ConsumerRing) :
    (p.modConsumer ring g).dl = p.dl := by cases ring <;> rfl
@[simp] theorem Part.modConsumer_cq (ring : RingId) (g : ConsumerRing → ConsumerRing) :
    (p.modConsumer ring g).cq = p.cq := by cases ring <;> rfl
@[simp] theorem Part.modConsumer_cm (ring : RingId) (g : ConsumerRing → ConsumerRing) :
    (p.modConsumer ring g).cm = p.cm := by cases ring <;> rfl
@[simp] theorem Part.modConsumer_choice (ring : RingId) (g : ConsumerRing → ConsumerRing) :
    (p.modConsumer ring g).choice = p.choice := by cases ring <;> rfl

/-! ## Reading an entry that an update wrote -/

@[simp] theorem Part.stream_modStream_self (i : Fin 64) (f : StreamEntry → StreamEntry) :
    (p.modStream i f).stream i = f (p.stream i) := by simp [Part.stream, Part.modStream]

theorem Part.stream_modStream_of_ne {i j : Fin 64} (f : StreamEntry → StreamEntry) (h : j ≠ i) :
    (p.modStream i f).stream j = p.stream j := by simp [Part.stream, Part.modStream, Table.get_modify_of_ne, h]

@[simp] theorem Part.queue_setQueue_self (i : Fin 64) (q : List InboundEntry) : (p.setQueue i q).queue i = q := by
  simp [Part.queue, Part.setQueue]

theorem Part.queue_setQueue_of_ne {i j : Fin 64} (q : List InboundEntry) (h : j ≠ i) :
    (p.setQueue i q).queue j = p.queue j := by simp [Part.queue, Part.setQueue, Table.get_set_of_ne, h]

@[simp] theorem Part.context_modContext_self (c : Fin 32) (f : Context → Context) :
    (p.modContext c f).context c = f (p.context c) := by simp [Part.context, Part.modContext]

theorem Part.context_modContext_of_ne {c d : Fin 32} (f : Context → Context) (h : d ≠ c) :
    (p.modContext c f).context d = p.context d := by
  simp [Part.context, Part.modContext, Table.get_modify_of_ne, h]

@[simp] theorem Part.landRing_modLandRing_self (r : Fin 8) (f : LandingRing → LandingRing) :
    (p.modLandRing r f).landRing r = f (p.landRing r) := by simp [Part.landRing, Part.modLandRing]

theorem Part.landRing_modLandRing_of_ne {r s : Fin 8} (f : LandingRing → LandingRing) (h : s ≠ r) :
    (p.modLandRing r f).landRing s = p.landRing s := by
  simp [Part.landRing, Part.modLandRing, Table.get_modify_of_ne, h]

@[simp] theorem Part.consumer_modConsumer_self (ring : RingId) (f : ConsumerRing → ConsumerRing) :
    (p.modConsumer ring f).consumer ring = f (p.consumer ring) := by
  cases ring <;> simp [Part.consumer, Part.modConsumer]

theorem Part.consumer_modConsumer_of_ne {ring other : RingId} (f : ConsumerRing → ConsumerRing) (h : other ≠ ring) :
    (p.modConsumer ring f).consumer other = p.consumer other := by
  cases ring <;> cases other <;>
    simp_all [Part.consumer, Part.modConsumer, Table.get_modify_of_ne]

/-! ## The queue of waiting commands -/

@[simp] theorem State.apply_eq (s : State) (f : Part → Part) :
    s.apply f = .next { toPart := f s.toPart, pending := s.pending } := rfl

end Machine

end Sys2Proof
end

