-- ==== Sys2Proof/Laws/Frames.lean ====
section
/-! SUPPORT. Which units an operation leaves alone: for every shared operation one lemma, with an equation for every unit
that it does not change. -/

namespace Sys2Proof.Machine

/-- What every round of a fold leaves unchanged, the fold leaves unchanged. -/
theorem foldl_frame {α β : Type} (f : Part → α → Part) (g : Part → β) (h : ∀ p a, g (f p a) = g p) (l : List α)
    (p : Part) : g (l.foldl f p) = g p := by
  induction l generalizing p with
  | nil => rfl
  | cons a l ih => exact (ih (f p a)).trans (h p a)

/-- What taking an offer leaves unchanged, the taking of all offers leaves unchanged. -/
theorem settleOffers_frame {β : Type} (g : Part → β) (hc : ∀ p n, g { p with choice := n } = g p)
    (ht : ∀ p w, g (p.take w) = g p) (fuel : Nat) (p : Part) : g (settleOffers fuel p) = g p := by
  induction fuel generalizing p with
  | zero => rfl
  | succ fuel ih =>
    unfold settleOffers
    split
    · split
      · rfl
      · rename_i w q hq
        have : g q = g p := by
          unfold Part.chooseOffer at hq
          split at hq
          · cases hq
          · cases hq; rfl
          · simp only [Option.some.injEq, Prod.mk.injEq] at hq
            rw [← hq.2]; exact hc p _
        rw [ih, ht, this]
    · rfl

variable (p : Part)

@[simp] theorem Part.reportClose_frame (i : Fin 64) (status : Status) :
    (p.reportClose i status).hi = p.hi ∧ (p.reportClose i status).lk = p.lk ∧ (p.reportClose i status).sq = p.sq
      ∧ (p.reportClose i status).streams = p.streams ∧ (p.reportClose i status).control = p.control
      ∧ (p.reportClose i status).ib = p.ib ∧ (p.reportClose i status).tx = p.tx
      ∧ (p.reportClose i status).sf = p.sf ∧ (p.reportClose i status).dl = p.dl
      ∧ (p.reportClose i status).cq = p.cq ∧ (p.reportClose i status).rings = p.rings
      ∧ (p.reportClose i status).choice = p.choice := by
  unfold Part.reportClose; (repeat' split) <;> simp

@[simp] theorem Part.queueGrant_frame (i : Fin 64) (a c m : Nat) :
    (p.queueGrant i a c m).hi = p.hi ∧ (p.queueGrant i a c m).lk = p.lk ∧ (p.queueGrant i a c m).sq = p.sq
      ∧ (p.queueGrant i a c m).streams = p.streams ∧ (p.queueGrant i a c m).ib = p.ib
      ∧ (p.queueGrant i a c m).tx = p.tx ∧ (p.queueGrant i a c m).sf = p.sf ∧ (p.queueGrant i a c m).dl = p.dl
      ∧ (p.queueGrant i a c m).cq = p.cq ∧ (p.queueGrant i a c m).cm = p.cm
      ∧ (p.queueGrant i a c m).rings = p.rings ∧ (p.queueGrant i a c m).choice = p.choice := by
  unfold Part.queueGrant; (repeat' split) <;> simp

@[simp] theorem Part.queueReturnGrant_frame (i : Fin 64) (n : Nat) :
    (p.queueReturnGrant i n).hi = p.hi ∧ (p.queueReturnGrant i n).lk = p.lk ∧ (p.queueReturnGrant i n).sq = p.sq
      ∧ (p.queueReturnGrant i n).streams = p.streams ∧ (p.queueReturnGrant i n).ib = p.ib
      ∧ (p.queueReturnGrant i n).tx = p.tx ∧ (p.queueReturnGrant i n).sf = p.sf
      ∧ (p.queueReturnGrant i n).dl = p.dl ∧ (p.queueReturnGrant i n).cq = p.cq
      ∧ (p.queueReturnGrant i n).cm = p.cm ∧ (p.queueReturnGrant i n).rings = p.rings
      ∧ (p.queueReturnGrant i n).choice = p.choice := by
  unfold Part.queueReturnGrant; (repeat' split) <;> simp

@[simp] theorem Part.queueCut_frame (i : Fin 64) :
    (p.queueCut i).hi = p.hi ∧ (p.queueCut i).lk = p.lk ∧ (p.queueCut i).sq = p.sq
      ∧ (p.queueCut i).streams = p.streams ∧ (p.queueCut i).ib = p.ib ∧ (p.queueCut i).tx = p.tx
      ∧ (p.queueCut i).sf = p.sf ∧ (p.queueCut i).dl = p.dl ∧ (p.queueCut i).cq = p.cq ∧ (p.queueCut i).cm = p.cm
      ∧ (p.queueCut i).rings = p.rings ∧ (p.queueCut i).choice = p.choice := by
  unfold Part.queueCut; (repeat' split) <;> simp

@[simp] theorem Part.exitTest_frame (i : Fin 64) :
    (p.exitTest i).hi = p.hi ∧ (p.exitTest i).lk = p.lk ∧ (p.exitTest i).sq = p.sq
      ∧ (p.exitTest i).control = p.control ∧ (p.exitTest i).tx = p.tx ∧ (p.exitTest i).sf = p.sf
      ∧ (p.exitTest i).dl = p.dl ∧ (p.exitTest i).cq = p.cq ∧ (p.exitTest i).rings = p.rings
      ∧ (p.exitTest i).choice = p.choice := by
  unfold Part.exitTest; dsimp only; (repeat' split) <;> simp

@[simp] theorem Part.withdrawSequenced_frame (i : Fin 64) :
    (p.withdrawSequenced i).hi = p.hi ∧ (p.withdrawSequenced i).lk = p.lk ∧ (p.withdrawSequenced i).sq = p.sq
      ∧ (p.withdrawSequenced i).control = p.control ∧ (p.withdrawSequenced i).tx = p.tx
      ∧ (p.withdrawSequenced i).sf = p.sf ∧ (p.withdrawSequenced i).dl = p.dl ∧ (p.withdrawSequenced i).cq = p.cq
      ∧ (p.withdrawSequenced i).rings = p.rings ∧ (p.withdrawSequenced i).choice = p.choice := by
  unfold Part.withdrawSequenced; simp

@[simp] theorem Part.markerReported_frame (i : Fin 64) :
    (p.markerReported i).hi = p.hi ∧ (p.markerReported i).lk = p.lk ∧ (p.markerReported i).sq = p.sq
      ∧ (p.markerReported i).control = p.control ∧ (p.markerReported i).tx = p.tx ∧ (p.markerReported i).sf = p.sf
      ∧ (p.markerReported i).dl = p.dl ∧ (p.markerReported i).cq = p.cq ∧ (p.markerReported i).rings = p.rings
      ∧ (p.markerReported i).choice = p.choice := by
  unfold Part.markerReported; (repeat' split) <;> simp

@[simp] theorem Part.openStream_frame (i : Fin 64) (s : Fin 4) (r : Fin 8) (a b m : Nat) :
    (p.openStream i s r a b m).hi = p.hi ∧ (p.openStream i s r a b m).lk = p.lk
      ∧ (p.openStream i s r a b m).sq = p.sq ∧ (p.openStream i s r a b m).tx = p.tx
      ∧ (p.openStream i s r a b m).sf = p.sf ∧ (p.openStream i s r a b m).dl = p.dl
      ∧ (p.openStream i s r a b m).cq = p.cq ∧ (p.openStream i s r a b m).cm = p.cm
      ∧ (p.openStream i s r a b m).rings = p.rings ∧ (p.openStream i s r a b m).choice = p.choice := by
  unfold Part.openStream; dsimp only; (repeat' split) <;> simp

@[simp] theorem Part.saveOffer_frame (i : Fin 64) (g : GrantParcel) :
    (p.saveOffer i g).hi = p.hi ∧ (p.saveOffer i g).sq = p.sq ∧ (p.saveOffer i g).control = p.control
      ∧ (p.saveOffer i g).ib = p.ib ∧ (p.saveOffer i g).tx = p.tx ∧ (p.saveOffer i g).sf = p.sf
      ∧ (p.saveOffer i g).dl = p.dl ∧ (p.saveOffer i g).cq = p.cq ∧ (p.saveOffer i g).cm = p.cm
      ∧ (p.saveOffer i g).rings = p.rings ∧ (p.saveOffer i g).choice = p.choice := by
  unfold Part.saveOffer; dsimp only; (repeat' split) <;> simp

@[simp] theorem Part.addCredits_frame (i : Fin 64) (n : Nat) :
    (p.addCredits i n).hi = p.hi ∧ (p.addCredits i n).sq = p.sq ∧ (p.addCredits i n).control = p.control
      ∧ (p.addCredits i n).ib = p.ib ∧ (p.addCredits i n).tx = p.tx ∧ (p.addCredits i n).sf = p.sf
      ∧ (p.addCredits i n).dl = p.dl ∧ (p.addCredits i n).cq = p.cq ∧ (p.addCredits i n).cm = p.cm
      ∧ (p.addCredits i n).rings = p.rings ∧ (p.addCredits i n).choice = p.choice := by
  unfold Part.addCredits; dsimp only; (repeat' split) <;> simp

@[simp] theorem Part.takeGrant_frame (i : Fin 64) (g : GrantParcel) :
    (p.takeGrant i g).hi = p.hi ∧ (p.takeGrant i g).sq = p.sq ∧ (p.takeGrant i g).control = p.control
      ∧ (p.takeGrant i g).ib = p.ib ∧ (p.takeGrant i g).tx = p.tx ∧ (p.takeGrant i g).sf = p.sf
      ∧ (p.takeGrant i g).dl = p.dl ∧ (p.takeGrant i g).cq = p.cq ∧ (p.takeGrant i g).cm = p.cm
      ∧ (p.takeGrant i g).rings = p.rings ∧ (p.takeGrant i g).choice = p.choice := by
  unfold Part.takeGrant; dsimp only; (repeat' split) <;> simp

@[simp] theorem Part.dropStagedOfStream_frame (i : Fin 64) :
    (p.dropStagedOfStream i).hi = p.hi ∧ (p.dropStagedOfStream i).lk = p.lk ∧ (p.dropStagedOfStream i).sq = p.sq
      ∧ (p.dropStagedOfStream i).streams = p.streams ∧ (p.dropStagedOfStream i).control = p.control
      ∧ (p.dropStagedOfStream i).ib = p.ib ∧ (p.dropStagedOfStream i).sf = p.sf
      ∧ (p.dropStagedOfStream i).dl = p.dl ∧ (p.dropStagedOfStream i).cq = p.cq
      ∧ (p.dropStagedOfStream i).cm = p.cm ∧ (p.dropStagedOfStream i).rings = p.rings
      ∧ (p.dropStagedOfStream i).choice = p.choice := by
  unfold Part.dropStagedOfStream; dsimp only; (repeat' split) <;> simp

@[simp] theorem Part.dropStagedOfContext_frame (c : Fin 32) :
    (p.dropStagedOfContext c).hi = p.hi ∧ (p.dropStagedOfContext c).lk = p.lk
      ∧ (p.dropStagedOfContext c).sq = p.sq ∧ (p.dropStagedOfContext c).streams = p.streams
      ∧ (p.dropStagedOfContext c).control = p.control ∧ (p.dropStagedOfContext c).ib = p.ib
      ∧ (p.dropStagedOfContext c).sf = p.sf ∧ (p.dropStagedOfContext c).dl = p.dl
      ∧ (p.dropStagedOfContext c).cq = p.cq ∧ (p.dropStagedOfContext c).cm = p.cm
      ∧ (p.dropStagedOfContext c).rings = p.rings ∧ (p.dropStagedOfContext c).choice = p.choice := by
  unfold Part.dropStagedOfContext; dsimp only; (repeat' split) <;> simp

@[simp] theorem Part.leaveSendLine_frame (c : Fin 32) :
    (p.leaveSendLine c).hi = p.hi ∧ (p.leaveSendLine c).lk = p.lk ∧ (p.leaveSendLine c).sq = p.sq
      ∧ (p.leaveSendLine c).control = p.control ∧ (p.leaveSendLine c).tx = p.tx ∧ (p.leaveSendLine c).sf = p.sf
      ∧ (p.leaveSendLine c).dl = p.dl ∧ (p.leaveSendLine c).cq = p.cq ∧ (p.leaveSendLine c).rings = p.rings
      ∧ (p.leaveSendLine c).choice = p.choice := by
  unfold Part.leaveSendLine; dsimp only; (repeat' split) <;> simp

@[simp] theorem Part.decideContext_frame (c : Fin 32) (o : Status) :
    (p.decideContext c o).hi = p.hi ∧ (p.decideContext c o).lk = p.lk
      ∧ (p.decideContext c o).control = p.control ∧ (p.decideContext c o).dl = p.dl
      ∧ (p.decideContext c o).cq = p.cq ∧ (p.decideContext c o).rings = p.rings
      ∧ (p.decideContext c o).choice = p.choice := by
  unfold Part.decideContext; dsimp only; (repeat' split) <;> simp

@[simp] theorem Part.hostReadFault_frame (c : Fin 32) :
    (p.hostReadFault c).hi = p.hi ∧ (p.hostReadFault c).lk = p.lk ∧ (p.hostReadFault c).control = p.control
      ∧ (p.hostReadFault c).dl = p.dl ∧ (p.hostReadFault c).cq = p.cq ∧ (p.hostReadFault c).rings = p.rings
      ∧ (p.hostReadFault c).choice = p.choice := by
  unfold Part.hostReadFault; (repeat' split) <;> simp

@[simp] theorem Part.decideAll_frame (cs : List (Fin 32)) (o : Status) :
    (p.decideAll cs o).hi = p.hi ∧ (p.decideAll cs o).lk = p.lk ∧ (p.decideAll cs o).control = p.control
      ∧ (p.decideAll cs o).dl = p.dl ∧ (p.decideAll cs o).cq = p.cq ∧ (p.decideAll cs o).rings = p.rings
      ∧ (p.decideAll cs o).choice = p.choice :=
  ⟨foldl_frame _ (fun q => q.hi) (by simp) cs p,
    foldl_frame _ (fun q => q.lk) (by simp) cs p,
    foldl_frame _ (fun q => q.control) (by simp) cs p,
    foldl_frame _ (fun q => q.dl) (by simp) cs p,
    foldl_frame _ (fun q => q.cq) (by simp) cs p,
    foldl_frame _ (fun q => q.rings) (by simp) cs p,
    foldl_frame _ (fun q => q.choice) (by simp) cs p⟩

@[simp] theorem Part.acknowledged_frame (c : Fin 32) :
    (p.acknowledged c).hi = p.hi ∧ (p.acknowledged c).lk = p.lk ∧ (p.acknowledged c).control = p.control
      ∧ (p.acknowledged c).dl = p.dl ∧ (p.acknowledged c).cq = p.cq ∧ (p.acknowledged c).rings = p.rings
      ∧ (p.acknowledged c).choice = p.choice := by
  unfold Part.acknowledged; dsimp only; (repeat' split) <;> simp

@[simp] theorem Part.removeBefore_frame (n : Seq) :
    (p.removeBefore n).hi = p.hi ∧ (p.removeBefore n).lk = p.lk ∧ (p.removeBefore n).streams = p.streams
      ∧ (p.removeBefore n).control = p.control ∧ (p.removeBefore n).ib = p.ib ∧ (p.removeBefore n).tx = p.tx
      ∧ (p.removeBefore n).sf = p.sf ∧ (p.removeBefore n).dl = p.dl ∧ (p.removeBefore n).cq = p.cq
      ∧ (p.removeBefore n).cm = p.cm ∧ (p.removeBefore n).rings = p.rings ∧ (p.removeBefore n).choice = p.choice := by
  unfold Part.removeBefore; dsimp only; (repeat' split) <;> simp

@[simp] theorem Part.acknowledge_frame (n : Seq) :
    (p.acknowledge n).hi = p.hi ∧ (p.acknowledge n).lk = p.lk ∧ (p.acknowledge n).control = p.control
      ∧ (p.acknowledge n).dl = p.dl ∧ (p.acknowledge n).cq = p.cq ∧ (p.acknowledge n).rings = p.rings
      ∧ (p.acknowledge n).choice = p.choice := by
  unfold Part.acknowledge
  exact ⟨(foldl_frame _ (fun q => q.hi) (by simp) _ _).trans (by simp),
    (foldl_frame _ (fun q => q.lk) (by simp) _ _).trans (by simp),
    (foldl_frame _ (fun q => q.control) (by simp) _ _).trans (by simp),
    (foldl_frame _ (fun q => q.dl) (by simp) _ _).trans (by simp),
    (foldl_frame _ (fun q => q.cq) (by simp) _ _).trans (by simp),
    (foldl_frame _ (fun q => q.rings) (by simp) _ _).trans (by simp),
    (foldl_frame _ (fun q => q.choice) (by simp) _ _).trans (by simp)⟩

@[simp] theorem Part.validate_frame (c : Fin 32) :
    (p.validate c).hi = p.hi ∧ (p.validate c).lk = p.lk ∧ (p.validate c).sq = p.sq
      ∧ (p.validate c).control = p.control ∧ (p.validate c).ib = p.ib ∧ (p.validate c).tx = p.tx
      ∧ (p.validate c).dl = p.dl ∧ (p.validate c).cq = p.cq ∧ (p.validate c).cm = p.cm
      ∧ (p.validate c).rings = p.rings ∧ (p.validate c).choice = p.choice := by
  unfold Part.validate; dsimp only; (repeat' split) <;> simp

@[simp] theorem Part.takeSendRecord_frame (r : Fin 4) (k : Nat) (record : SendRecord) :
    (p.takeSendRecord r k record).hi = p.hi ∧ (p.takeSendRecord r k record).lk = p.lk
      ∧ (p.takeSendRecord r k record).sq = p.sq ∧ (p.takeSendRecord r k record).control = p.control
      ∧ (p.takeSendRecord r k record).ib = p.ib ∧ (p.takeSendRecord r k record).tx = p.tx
      ∧ (p.takeSendRecord r k record).dl = p.dl ∧ (p.takeSendRecord r k record).cq = p.cq
      ∧ (p.takeSendRecord r k record).cm = p.cm ∧ (p.takeSendRecord r k record).rings = p.rings
      ∧ (p.takeSendRecord r k record).choice = p.choice := by
  unfold Part.takeSendRecord; dsimp only; (repeat' split) <;> simp

@[simp] theorem Part.gather_frame (c : Fin 32) :
    (p.gather c).lk = p.lk ∧ (p.gather c).sq = p.sq ∧ (p.gather c).streams = p.streams
      ∧ (p.gather c).control = p.control ∧ (p.gather c).ib = p.ib ∧ (p.gather c).sf = p.sf
      ∧ (p.gather c).dl = p.dl ∧ (p.gather c).cq = p.cq ∧ (p.gather c).cm = p.cm ∧ (p.gather c).rings = p.rings
      ∧ (p.gather c).choice = p.choice := by
  unfold Part.gather; dsimp only; (repeat' split) <;> simp

@[simp] theorem Part.pick_frame :
    (p.pick).lk = p.lk ∧ (p.pick).sq = p.sq ∧ (p.pick).streams = p.streams ∧ (p.pick).control = p.control
      ∧ (p.pick).ib = p.ib ∧ (p.pick).sf = p.sf ∧ (p.pick).dl = p.dl ∧ (p.pick).cq = p.cq ∧ (p.pick).cm = p.cm
      ∧ (p.pick).rings = p.rings ∧ (p.pick).choice = p.choice := by
  unfold Part.pick; dsimp only; (repeat' split) <;> simp

@[simp] theorem Part.payloadReadFault_frame (d : Described) :
    (p.payloadReadFault d).hi = p.hi ∧ (p.payloadReadFault d).lk = p.lk ∧ (p.payloadReadFault d).dl = p.dl
      ∧ (p.payloadReadFault d).cq = p.cq ∧ (p.payloadReadFault d).rings = p.rings
      ∧ (p.payloadReadFault d).choice = p.choice := by
  unfold Part.payloadReadFault; dsimp only; (repeat' split) <;> simp

@[simp] theorem Part.gatherEnd_frame (k : Nat) (result : ReadEnd) :
    (p.gatherEnd k result).hi = p.hi ∧ (p.gatherEnd k result).lk = p.lk ∧ (p.gatherEnd k result).dl = p.dl
      ∧ (p.gatherEnd k result).cq = p.cq ∧ (p.gatherEnd k result).rings = p.rings
      ∧ (p.gatherEnd k result).choice = p.choice := by
  unfold Part.gatherEnd; dsimp only; (repeat' split) <;> simp

@[simp] theorem Part.refetch_frame :
    (p.refetch).lk = p.lk ∧ (p.refetch).streams = p.streams ∧ (p.refetch).control = p.control
      ∧ (p.refetch).ib = p.ib ∧ (p.refetch).tx = p.tx ∧ (p.refetch).sf = p.sf ∧ (p.refetch).dl = p.dl
      ∧ (p.refetch).cq = p.cq ∧ (p.refetch).cm = p.cm ∧ (p.refetch).rings = p.rings
      ∧ (p.refetch).choice = p.choice := by
  unfold Part.refetch; dsimp only; (repeat' split) <;> simp

@[simp] theorem Part.refetchFault_frame (n : Seq) :
    (p.refetchFault n).hi = p.hi ∧ (p.refetchFault n).lk = p.lk ∧ (p.refetchFault n).dl = p.dl
      ∧ (p.refetchFault n).cq = p.cq ∧ (p.refetchFault n).rings = p.rings ∧ (p.refetchFault n).choice = p.choice := by
  unfold Part.refetchFault; dsimp only; (repeat' split) <;> simp

@[simp] theorem Part.refetchRead_frame (k : Nat) (result : ReadEnd) :
    (p.refetchRead k result).hi = p.hi ∧ (p.refetchRead k result).lk = p.lk ∧ (p.refetchRead k result).dl = p.dl
      ∧ (p.refetchRead k result).cq = p.cq ∧ (p.refetchRead k result).rings = p.rings
      ∧ (p.refetchRead k result).choice = p.choice := by
  unfold Part.refetchRead; dsimp only; (repeat' split) <;> simp

@[simp] theorem Part.markEarlier_frame (i : Fin 64) (c : Fin 32) :
    (p.markEarlier i c).hi = p.hi ∧ (p.markEarlier i c).lk = p.lk ∧ (p.markEarlier i c).sq = p.sq
      ∧ (p.markEarlier i c).streams = p.streams ∧ (p.markEarlier i c).control = p.control
      ∧ (p.markEarlier i c).ib = p.ib ∧ (p.markEarlier i c).tx = p.tx ∧ (p.markEarlier i c).dl = p.dl
      ∧ (p.markEarlier i c).cq = p.cq ∧ (p.markEarlier i c).cm = p.cm ∧ (p.markEarlier i c).rings = p.rings
      ∧ (p.markEarlier i c).choice = p.choice := by
  unfold Part.markEarlier
  exact ⟨foldl_frame _ (fun q => q.hi) (by simp) _ p,
    foldl_frame _ (fun q => q.lk) (by simp) _ p,
    foldl_frame _ (fun q => q.sq) (by simp) _ p,
    foldl_frame _ (fun q => q.streams) (by simp) _ p,
    foldl_frame _ (fun q => q.control) (by simp) _ p,
    foldl_frame _ (fun q => q.ib) (by simp) _ p,
    foldl_frame _ (fun q => q.tx) (by simp) _ p,
    foldl_frame _ (fun q => q.dl) (by simp) _ p,
    foldl_frame _ (fun q => q.cq) (by simp) _ p,
    foldl_frame _ (fun q => q.cm) (by simp) _ p,
    foldl_frame _ (fun q => q.rings) (by simp) _ p,
    foldl_frame _ (fun q => q.choice) (by simp) _ p⟩

@[simp] theorem Part.sendStaged_frame (d : Described) (payload : List Byte) :
    (p.sendStaged d payload).hi = p.hi ∧ (p.sendStaged d payload).control = p.control
      ∧ (p.sendStaged d payload).ib = p.ib ∧ (p.sendStaged d payload).dl = p.dl
      ∧ (p.sendStaged d payload).cq = p.cq ∧ (p.sendStaged d payload).cm = p.cm
      ∧ (p.sendStaged d payload).rings = p.rings ∧ (p.sendStaged d payload).choice = p.choice := by
  unfold Part.sendStaged; dsimp only; simp

@[simp] theorem Part.checkNeed_frame (r : Fin 8) :
    (p.checkNeed r).hi = p.hi ∧ (p.checkNeed r).lk = p.lk ∧ (p.checkNeed r).sq = p.sq
      ∧ (p.checkNeed r).streams = p.streams ∧ (p.checkNeed r).control = p.control ∧ (p.checkNeed r).ib = p.ib
      ∧ (p.checkNeed r).tx = p.tx ∧ (p.checkNeed r).sf = p.sf ∧ (p.checkNeed r).cq = p.cq
      ∧ (p.checkNeed r).cm = p.cm ∧ (p.checkNeed r).rings = p.rings ∧ (p.checkNeed r).choice = p.choice := by
  unfold Part.checkNeed; (repeat' split) <;> simp

@[simp] theorem Part.refreshRing_frame (r : Fin 8) :
    (p.refreshRing r).hi = p.hi ∧ (p.refreshRing r).lk = p.lk ∧ (p.refreshRing r).sq = p.sq
      ∧ (p.refreshRing r).streams = p.streams ∧ (p.refreshRing r).control = p.control
      ∧ (p.refreshRing r).ib = p.ib ∧ (p.refreshRing r).tx = p.tx ∧ (p.refreshRing r).sf = p.sf
      ∧ (p.refreshRing r).cq = p.cq ∧ (p.refreshRing r).cm = p.cm ∧ (p.refreshRing r).rings = p.rings
      ∧ (p.refreshRing r).choice = p.choice := by
  unfold Part.refreshRing; simp

@[simp] theorem Part.askClaim_frame (i : Fin 64) :
    (p.askClaim i).hi = p.hi ∧ (p.askClaim i).lk = p.lk ∧ (p.askClaim i).sq = p.sq
      ∧ (p.askClaim i).streams = p.streams ∧ (p.askClaim i).control = p.control ∧ (p.askClaim i).ib = p.ib
      ∧ (p.askClaim i).tx = p.tx ∧ (p.askClaim i).sf = p.sf ∧ (p.askClaim i).cq = p.cq ∧ (p.askClaim i).cm = p.cm
      ∧ (p.askClaim i).rings = p.rings ∧ (p.askClaim i).choice = p.choice := by
  unfold Part.askClaim; (repeat' split) <;> simp

@[simp] theorem Part.passClaim_frame (r : Fin 8) :
    (p.passClaim r).hi = p.hi ∧ (p.passClaim r).lk = p.lk ∧ (p.passClaim r).sq = p.sq
      ∧ (p.passClaim r).streams = p.streams ∧ (p.passClaim r).control = p.control ∧ (p.passClaim r).ib = p.ib
      ∧ (p.passClaim r).tx = p.tx ∧ (p.passClaim r).sf = p.sf ∧ (p.passClaim r).cq = p.cq
      ∧ (p.passClaim r).cm = p.cm ∧ (p.passClaim r).rings = p.rings ∧ (p.passClaim r).choice = p.choice := by
  unfold Part.passClaim; (repeat' split) <;> simp

@[simp] theorem Part.giveUpClaim_frame (r : Fin 8) (i : Fin 64) :
    (p.giveUpClaim r i).hi = p.hi ∧ (p.giveUpClaim r i).lk = p.lk ∧ (p.giveUpClaim r i).sq = p.sq
      ∧ (p.giveUpClaim r i).control = p.control ∧ (p.giveUpClaim r i).tx = p.tx ∧ (p.giveUpClaim r i).sf = p.sf
      ∧ (p.giveUpClaim r i).cq = p.cq ∧ (p.giveUpClaim r i).rings = p.rings
      ∧ (p.giveUpClaim r i).choice = p.choice := by
  unfold Part.giveUpClaim; dsimp only; simp

@[simp] theorem Part.place_frame (r : Fin 8) :
    (p.place r).lk = p.lk ∧ (p.place r).sq = p.sq ∧ (p.place r).control = p.control ∧ (p.place r).ib = p.ib
      ∧ (p.place r).tx = p.tx ∧ (p.place r).sf = p.sf ∧ (p.place r).cq = p.cq ∧ (p.place r).cm = p.cm
      ∧ (p.place r).rings = p.rings ∧ (p.place r).choice = p.choice := by
  unfold Part.place; dsimp only; (repeat' split) <;> simp

@[simp] theorem Part.endLanding_frame (r : Fin 8) :
    (p.endLanding r).hi = p.hi ∧ (p.endLanding r).lk = p.lk ∧ (p.endLanding r).sq = p.sq
      ∧ (p.endLanding r).control = p.control ∧ (p.endLanding r).ib = p.ib ∧ (p.endLanding r).tx = p.tx
      ∧ (p.endLanding r).sf = p.sf ∧ (p.endLanding r).cq = p.cq ∧ (p.endLanding r).cm = p.cm
      ∧ (p.endLanding r).rings = p.rings ∧ (p.endLanding r).choice = p.choice := by
  unfold Part.endLanding; dsimp only; (repeat' split) <;> simp

@[simp] theorem Part.landingWriteEnd_frame (r : Fin 8) (k : Nat) (ok : Bool) :
    (p.landingWriteEnd r k ok).hi = p.hi ∧ (p.landingWriteEnd r k ok).lk = p.lk
      ∧ (p.landingWriteEnd r k ok).sq = p.sq ∧ (p.landingWriteEnd r k ok).control = p.control
      ∧ (p.landingWriteEnd r k ok).ib = p.ib ∧ (p.landingWriteEnd r k ok).tx = p.tx
      ∧ (p.landingWriteEnd r k ok).sf = p.sf ∧ (p.landingWriteEnd r k ok).cq = p.cq
      ∧ (p.landingWriteEnd r k ok).cm = p.cm ∧ (p.landingWriteEnd r k ok).rings = p.rings
      ∧ (p.landingWriteEnd r k ok).choice = p.choice := by
  unfold Part.landingWriteEnd; dsimp only; simp

@[simp] theorem Part.freeSlot_frame (i : Fin 64) :
    (p.freeSlot i).hi = p.hi ∧ (p.freeSlot i).lk = p.lk ∧ (p.freeSlot i).sq = p.sq ∧ (p.freeSlot i).tx = p.tx
      ∧ (p.freeSlot i).sf = p.sf ∧ (p.freeSlot i).dl = p.dl ∧ (p.freeSlot i).cq = p.cq ∧ (p.freeSlot i).cm = p.cm
      ∧ (p.freeSlot i).rings = p.rings ∧ (p.freeSlot i).choice = p.choice := by
  unfold Part.freeSlot; dsimp only; (repeat' split) <;> simp

@[simp] theorem Part.takeData_frame (i : Fin 64) :
    (p.takeData i).hi = p.hi ∧ (p.takeData i).lk = p.lk ∧ (p.takeData i).sq = p.sq ∧ (p.takeData i).tx = p.tx
      ∧ (p.takeData i).sf = p.sf ∧ (p.takeData i).dl = p.dl ∧ (p.takeData i).cq = p.cq ∧ (p.takeData i).cm = p.cm
      ∧ (p.takeData i).rings = p.rings ∧ (p.takeData i).choice = p.choice := by
  unfold Part.takeData; simp

@[simp] theorem Part.land_frame (i : Fin 64) (d : StoredData) :
    (p.land i d).lk = p.lk ∧ (p.land i d).sq = p.sq ∧ (p.land i d).control = p.control ∧ (p.land i d).ib = p.ib
      ∧ (p.land i d).tx = p.tx ∧ (p.land i d).sf = p.sf ∧ (p.land i d).cq = p.cq ∧ (p.land i d).cm = p.cm
      ∧ (p.land i d).rings = p.rings ∧ (p.land i d).choice = p.choice := by
  unfold Part.land; dsimp only; simp

@[simp] theorem Part.serveData_frame (i : Fin 64) (d : StoredData) :
    (p.serveData i d).lk = p.lk ∧ (p.serveData i d).sq = p.sq ∧ (p.serveData i d).tx = p.tx
      ∧ (p.serveData i d).sf = p.sf ∧ (p.serveData i d).cq = p.cq ∧ (p.serveData i d).cm = p.cm
      ∧ (p.serveData i d).rings = p.rings ∧ (p.serveData i d).choice = p.choice := by
  unfold Part.serveData; dsimp only; (repeat' split) <;> simp

@[simp] theorem Part.serveCut_frame (i : Fin 64) :
    (p.serveCut i).hi = p.hi ∧ (p.serveCut i).lk = p.lk ∧ (p.serveCut i).sq = p.sq
      ∧ (p.serveCut i).control = p.control ∧ (p.serveCut i).tx = p.tx ∧ (p.serveCut i).sf = p.sf
      ∧ (p.serveCut i).cq = p.cq ∧ (p.serveCut i).cm = p.cm ∧ (p.serveCut i).rings = p.rings
      ∧ (p.serveCut i).choice = p.choice := by
  unfold Part.serveCut; dsimp only; (repeat' split) <;> simp

@[simp] theorem Part.serveWithdraw_frame (i : Fin 64) :
    (p.serveWithdraw i).hi = p.hi ∧ (p.serveWithdraw i).lk = p.lk ∧ (p.serveWithdraw i).sq = p.sq
      ∧ (p.serveWithdraw i).control = p.control ∧ (p.serveWithdraw i).tx = p.tx ∧ (p.serveWithdraw i).sf = p.sf
      ∧ (p.serveWithdraw i).cq = p.cq ∧ (p.serveWithdraw i).rings = p.rings
      ∧ (p.serveWithdraw i).choice = p.choice := by
  unfold Part.serveWithdraw; dsimp only; (repeat' split) <;> simp

@[simp] theorem Part.deliver_frame :
    (p.deliver).lk = p.lk ∧ (p.deliver).sq = p.sq ∧ (p.deliver).tx = p.tx ∧ (p.deliver).sf = p.sf
      ∧ (p.deliver).cq = p.cq ∧ (p.deliver).rings = p.rings ∧ (p.deliver).choice = p.choice := by
  unfold Part.deliver; dsimp only; (repeat' split) <;> simp

@[simp] theorem Part.takeLandingRecord_frame (r : Fin 8) (k : Nat) (address : Addr) (length : Nat) :
    (p.takeLandingRecord r k address length).lk = p.lk ∧ (p.takeLandingRecord r k address length).sq = p.sq
      ∧ (p.takeLandingRecord r k address length).control = p.control
      ∧ (p.takeLandingRecord r k address length).ib = p.ib ∧ (p.takeLandingRecord r k address length).tx = p.tx
      ∧ (p.takeLandingRecord r k address length).sf = p.sf ∧ (p.takeLandingRecord r k address length).cq = p.cq
      ∧ (p.takeLandingRecord r k address length).cm = p.cm
      ∧ (p.takeLandingRecord r k address length).rings = p.rings
      ∧ (p.takeLandingRecord r k address length).choice = p.choice := by
  unfold Part.takeLandingRecord; dsimp only; (repeat' split) <;> simp

@[simp] theorem Part.gapExpiry_frame (r : Fin 8) :
    (p.gapExpiry r).hi = p.hi ∧ (p.gapExpiry r).lk = p.lk ∧ (p.gapExpiry r).sq = p.sq
      ∧ (p.gapExpiry r).control = p.control ∧ (p.gapExpiry r).ib = p.ib ∧ (p.gapExpiry r).tx = p.tx
      ∧ (p.gapExpiry r).sf = p.sf ∧ (p.gapExpiry r).cq = p.cq ∧ (p.gapExpiry r).cm = p.cm
      ∧ (p.gapExpiry r).rings = p.rings ∧ (p.gapExpiry r).choice = p.choice := by
  unfold Part.gapExpiry; dsimp only; (repeat' split) <;> simp

@[simp] theorem Part.closeDelivery_frame (i : Fin 64) :
    (p.closeDelivery i).hi = p.hi ∧ (p.closeDelivery i).lk = p.lk ∧ (p.closeDelivery i).sq = p.sq
      ∧ (p.closeDelivery i).control = p.control ∧ (p.closeDelivery i).tx = p.tx ∧ (p.closeDelivery i).sf = p.sf
      ∧ (p.closeDelivery i).cq = p.cq ∧ (p.closeDelivery i).rings = p.rings
      ∧ (p.closeDelivery i).choice = p.choice := by
  unfold Part.closeDelivery; dsimp only; (repeat' split) <;> simp

@[simp] theorem Part.teardownDelivery_frame :
    (p.teardownDelivery).hi = p.hi ∧ (p.teardownDelivery).lk = p.lk ∧ (p.teardownDelivery).sq = p.sq
      ∧ (p.teardownDelivery).streams = p.streams ∧ (p.teardownDelivery).control = p.control
      ∧ (p.teardownDelivery).ib = p.ib ∧ (p.teardownDelivery).tx = p.tx ∧ (p.teardownDelivery).sf = p.sf
      ∧ (p.teardownDelivery).cq = p.cq ∧ (p.teardownDelivery).cm = p.cm ∧ (p.teardownDelivery).rings = p.rings := by
  unfold Part.teardownDelivery; dsimp only; simp

@[simp] theorem Part.messageTaken_frame (r : Fin 8) (m : MessageCompletion) :
    (p.messageTaken r m).hi = p.hi ∧ (p.messageTaken r m).lk = p.lk ∧ (p.messageTaken r m).sq = p.sq
      ∧ (p.messageTaken r m).control = p.control ∧ (p.messageTaken r m).tx = p.tx ∧ (p.messageTaken r m).sf = p.sf
      ∧ (p.messageTaken r m).cq = p.cq ∧ (p.messageTaken r m).rings = p.rings
      ∧ (p.messageTaken r m).choice = p.choice := by
  unfold Part.messageTaken; dsimp only; (repeat' split) <;> simp

@[simp] theorem Part.released_frame (who : Producer) :
    (p.released who).hi = p.hi ∧ (p.released who).lk = p.lk ∧ (p.released who).sq = p.sq
      ∧ (p.released who).control = p.control ∧ (p.released who).tx = p.tx ∧ (p.released who).cq = p.cq
      ∧ (p.released who).rings = p.rings ∧ (p.released who).choice = p.choice := by
  unfold Part.released; dsimp only; (repeat' split) <;> simp

@[simp] theorem Part.take_frame (who : Producer) :
    (p.take who).lk = p.lk ∧ (p.take who).sq = p.sq ∧ (p.take who).control = p.control ∧ (p.take who).tx = p.tx
      ∧ (p.take who).rings = p.rings ∧ (p.take who).choice = p.choice := by
  unfold Part.take; dsimp only; (repeat' split) <;> simp

@[simp] theorem Part.settle_frame :
    (p.settle).lk = p.lk ∧ (p.settle).sq = p.sq ∧ (p.settle).control = p.control ∧ (p.settle).tx = p.tx
      ∧ (p.settle).rings = p.rings :=
  ⟨settleOffers_frame (fun q => q.lk) (by simp) (by simp) 33 p,
    settleOffers_frame (fun q => q.sq) (by simp) (by simp) 33 p,
    settleOffers_frame (fun q => q.control) (by simp) (by simp) 33 p,
    settleOffers_frame (fun q => q.tx) (by simp) (by simp) 33 p,
    settleOffers_frame (fun q => q.rings) (by simp) (by simp) 33 p⟩

@[simp] theorem Part.grantPlace_frame :
    (p.grantPlace).lk = p.lk ∧ (p.grantPlace).sq = p.sq ∧ (p.grantPlace).control = p.control
      ∧ (p.grantPlace).tx = p.tx ∧ (p.grantPlace).rings = p.rings ∧ (p.grantPlace).choice = p.choice := by
  unfold Part.grantPlace; dsimp only; (repeat' split) <;> simp

/-- Posting an event record changes no unit but the one that owns the flag it clears. -/
theorem Part.postEvent_frame {record : Record} {q : Part} (h : p.postEvent = some (record, q)) :
    q.hi = p.hi ∧ q.sq = p.sq ∧ q.control = p.control ∧ q.ib = p.ib ∧ q.tx = p.tx ∧ q.sf = p.sf ∧ q.cq = p.cq
      ∧ q.cm = p.cm ∧ q.rings = p.rings ∧ q.choice = p.choice := by
  unfold Part.postEvent at h
  split at h
  · cases h; simp
  · split at h
    · cases h; simp
    · split at h
      · cases h; simp
      · simp only [Option.map_eq_some_iff, Prod.mk.injEq] at h
        obtain ⟨_, _, _, rfl⟩ := h
        simp

@[simp] theorem Part.writeNext_frame :
    (p.writeNext).sq = p.sq ∧ (p.writeNext).control = p.control ∧ (p.writeNext).tx = p.tx
      ∧ (p.writeNext).rings = p.rings := by
  unfold Part.writeNext
  split
  · simp
  · split
    · simp [Part.postEvent_frame p (by assumption)]
    · split <;> simp

@[simp] theorem Part.countRecord_frame :
    (p.countRecord).lk = p.lk ∧ (p.countRecord).sq = p.sq ∧ (p.countRecord).streams = p.streams
      ∧ (p.countRecord).control = p.control ∧ (p.countRecord).ib = p.ib ∧ (p.countRecord).tx = p.tx
      ∧ (p.countRecord).sf = p.sf ∧ (p.countRecord).dl = p.dl ∧ (p.countRecord).cm = p.cm
      ∧ (p.countRecord).rings = p.rings ∧ (p.countRecord).choice = p.choice := by
  unfold Part.countRecord; dsimp only; (repeat' split) <;> simp

@[simp] theorem Part.enterOffline_frame :
    (p.enterOffline).hi = p.hi ∧ (p.enterOffline).sq = p.sq ∧ (p.enterOffline).streams = p.streams
      ∧ (p.enterOffline).control = p.control ∧ (p.enterOffline).ib = p.ib ∧ (p.enterOffline).tx = p.tx
      ∧ (p.enterOffline).sf = p.sf ∧ (p.enterOffline).dl = p.dl ∧ (p.enterOffline).cq = p.cq
      ∧ (p.enterOffline).rings = p.rings ∧ (p.enterOffline).choice = p.choice := by
  unfold Part.enterOffline; dsimp only; (repeat' split) <;> simp

@[simp] theorem Part.enterBySignal_frame :
    (p.enterBySignal).hi = p.hi ∧ (p.enterBySignal).sq = p.sq ∧ (p.enterBySignal).streams = p.streams
      ∧ (p.enterBySignal).control = p.control ∧ (p.enterBySignal).ib = p.ib ∧ (p.enterBySignal).tx = p.tx
      ∧ (p.enterBySignal).sf = p.sf ∧ (p.enterBySignal).dl = p.dl ∧ (p.enterBySignal).cq = p.cq
      ∧ (p.enterBySignal).cm = p.cm ∧ (p.enterBySignal).rings = p.rings ∧ (p.enterBySignal).choice = p.choice := by
  unfold Part.enterBySignal; (repeat' split) <;> simp

@[simp] theorem Part.afterTeardown_frame (t : Teardown) :
    (p.afterTeardown t).hi = p.hi ∧ (p.afterTeardown t).sq = p.sq ∧ (p.afterTeardown t).streams = p.streams
      ∧ (p.afterTeardown t).control = p.control ∧ (p.afterTeardown t).ib = p.ib ∧ (p.afterTeardown t).tx = p.tx
      ∧ (p.afterTeardown t).sf = p.sf ∧ (p.afterTeardown t).dl = p.dl ∧ (p.afterTeardown t).cq = p.cq
      ∧ (p.afterTeardown t).rings = p.rings ∧ (p.afterTeardown t).choice = p.choice := by
  unfold Part.afterTeardown; (repeat' split) <;> simp

@[simp] theorem Part.teardownCommand_frame :
    (p.teardownCommand).hi = p.hi ∧ (p.teardownCommand).lk = p.lk ∧ (p.teardownCommand).sq = p.sq
      ∧ (p.teardownCommand).streams = p.streams ∧ (p.teardownCommand).control = p.control
      ∧ (p.teardownCommand).ib = p.ib ∧ (p.teardownCommand).tx = p.tx ∧ (p.teardownCommand).sf = p.sf
      ∧ (p.teardownCommand).dl = p.dl ∧ (p.teardownCommand).cq = p.cq ∧ (p.teardownCommand).rings = p.rings
      ∧ (p.teardownCommand).choice = p.choice := by
  unfold Part.teardownCommand; (repeat' split) <;> simp

@[simp] theorem Part.teardownContexts_frame :
    (p.teardownContexts).hi = p.hi ∧ (p.teardownContexts).lk = p.lk ∧ (p.teardownContexts).sq = p.sq
      ∧ (p.teardownContexts).streams = p.streams ∧ (p.teardownContexts).control = p.control
      ∧ (p.teardownContexts).ib = p.ib ∧ (p.teardownContexts).tx = p.tx ∧ (p.teardownContexts).dl = p.dl
      ∧ (p.teardownContexts).cq = p.cq ∧ (p.teardownContexts).cm = p.cm ∧ (p.teardownContexts).rings = p.rings
      ∧ (p.teardownContexts).choice = p.choice := by
  unfold Part.teardownContexts
  exact ⟨foldl_frame _ (fun q => q.hi) (by simp) _ p,
    foldl_frame _ (fun q => q.lk) (by simp) _ p,
    foldl_frame _ (fun q => q.sq) (by simp) _ p,
    foldl_frame _ (fun q => q.streams) (by simp) _ p,
    foldl_frame _ (fun q => q.control) (by simp) _ p,
    foldl_frame _ (fun q => q.ib) (by simp) _ p,
    foldl_frame _ (fun q => q.tx) (by simp) _ p,
    foldl_frame _ (fun q => q.dl) (by simp) _ p,
    foldl_frame _ (fun q => q.cq) (by simp) _ p,
    foldl_frame _ (fun q => q.cm) (by simp) _ p,
    foldl_frame _ (fun q => q.rings) (by simp) _ p,
    foldl_frame _ (fun q => q.choice) (by simp) _ p⟩

@[simp] theorem Part.teardownStreams_frame :
    (p.teardownStreams).hi = p.hi ∧ (p.teardownStreams).lk = p.lk ∧ (p.teardownStreams).sq = p.sq
      ∧ (p.teardownStreams).tx = p.tx ∧ (p.teardownStreams).sf = p.sf ∧ (p.teardownStreams).dl = p.dl
      ∧ (p.teardownStreams).cq = p.cq ∧ (p.teardownStreams).cm = p.cm ∧ (p.teardownStreams).rings = p.rings
      ∧ (p.teardownStreams).choice = p.choice := by
  unfold Part.teardownStreams; dsimp only; simp

@[simp] theorem Part.teardownTransmitter_frame :
    (p.teardownTransmitter).hi = p.hi ∧ (p.teardownTransmitter).lk = p.lk ∧ (p.teardownTransmitter).sq = p.sq
      ∧ (p.teardownTransmitter).streams = p.streams ∧ (p.teardownTransmitter).control = p.control
      ∧ (p.teardownTransmitter).ib = p.ib ∧ (p.teardownTransmitter).sf = p.sf ∧ (p.teardownTransmitter).dl = p.dl
      ∧ (p.teardownTransmitter).cq = p.cq ∧ (p.teardownTransmitter).cm = p.cm
      ∧ (p.teardownTransmitter).rings = p.rings ∧ (p.teardownTransmitter).choice = p.choice := by
  unfold Part.teardownTransmitter; dsimp only; simp

@[simp] theorem Part.teardownUnits_frame :
    (p.teardownUnits).hi = p.hi ∧ (p.teardownUnits).lk = p.lk ∧ (p.teardownUnits).cq = p.cq
      ∧ (p.teardownUnits).rings = p.rings := by
  unfold Part.teardownUnits; simp

@[simp] theorem Part.applyTeardown_frame :
    (p.applyTeardown).hi = p.hi ∧ (p.applyTeardown).cq = p.cq ∧ (p.applyTeardown).rings = p.rings := by
  unfold Part.applyTeardown; dsimp only; split <;> simp

@[simp] theorem Part.beginTeardown_frame (cause : LinkCause) (kept : Option HelloParcel) :
    (p.beginTeardown cause kept).hi = p.hi ∧ (p.beginTeardown cause kept).cq = p.cq
      ∧ (p.beginTeardown cause kept).rings = p.rings := by
  unfold Part.beginTeardown; split <;> simp

/-- A teardown that begins while the framer is busy waits, and changes nothing else (R41). -/
theorem Part.beginTeardown_busy {cause : LinkCause} {kept : Option HelloParcel} (h : p.lk.state = .up)
    (ht : p.lk.teardown = none) (hx : p.lk.transmission ≠ none) :
    p.beginTeardown cause kept =
      { p with lk := { p.lk with teardown := some ⟨cause, decide (cause = .stopped), kept⟩ } } := by
  cases hp : p.lk.transmission with
  | none => exact absurd hp hx
  | some _ => simp [Part.beginTeardown, h, ht, Part.applyTeardown, hp]

/-- A teardown that begins while the framer is free is applied at once (R41). -/
theorem Part.beginTeardown_free {cause : LinkCause} {kept : Option HelloParcel} (h : p.lk.state = .up)
    (ht : p.lk.teardown = none) :
    p.beginTeardown cause kept =
      Part.applyTeardown
        { p with lk := { p.lk with teardown := some ⟨cause, decide (cause = .stopped), kept⟩ } } := by
  simp [Part.beginTeardown, h, ht]

@[simp] theorem Part.missedParcel_frame :
    (p.missedParcel).hi = p.hi ∧ (p.missedParcel).lk = p.lk ∧ (p.missedParcel).streams = p.streams
      ∧ (p.missedParcel).control = p.control ∧ (p.missedParcel).ib = p.ib ∧ (p.missedParcel).tx = p.tx
      ∧ (p.missedParcel).sf = p.sf ∧ (p.missedParcel).dl = p.dl ∧ (p.missedParcel).cq = p.cq
      ∧ (p.missedParcel).cm = p.cm ∧ (p.missedParcel).rings = p.rings ∧ (p.missedParcel).choice = p.choice := by
  unfold Part.missedParcel; dsimp only; (repeat' split) <;> simp

@[simp] theorem Part.badArrives_frame :
    (p.badArrives).hi = p.hi ∧ (p.badArrives).streams = p.streams ∧ (p.badArrives).control = p.control
      ∧ (p.badArrives).ib = p.ib ∧ (p.badArrives).tx = p.tx ∧ (p.badArrives).sf = p.sf ∧ (p.badArrives).dl = p.dl
      ∧ (p.badArrives).cq = p.cq ∧ (p.badArrives).cm = p.cm ∧ (p.badArrives).rings = p.rings
      ∧ (p.badArrives).choice = p.choice := by
  unfold Part.badArrives; (repeat' split) <;> simp

@[simp] theorem Part.helloArrives_frame (h : HelloParcel) : (p.helloArrives h).rings = p.rings := by
  unfold Part.helloArrives Part.helloInHello Part.helloInUp; dsimp only; (repeat' split) <;> simp

@[simp] theorem Part.takeDataParcel_frame (i : Fin 64) (d : DataParcel) :
    (p.takeDataParcel i d).hi = p.hi ∧ (p.takeDataParcel i d).sq = p.sq
      ∧ (p.takeDataParcel i d).control = p.control ∧ (p.takeDataParcel i d).tx = p.tx
      ∧ (p.takeDataParcel i d).sf = p.sf ∧ (p.takeDataParcel i d).cq = p.cq ∧ (p.takeDataParcel i d).cm = p.cm
      ∧ (p.takeDataParcel i d).rings = p.rings ∧ (p.takeDataParcel i d).choice = p.choice := by
  unfold Part.takeDataParcel; dsimp only; (repeat' split) <;> simp

@[simp] theorem Part.takeWithdraw_frame (i : Fin 64) :
    (p.takeWithdraw i).hi = p.hi ∧ (p.takeWithdraw i).cq = p.cq ∧ (p.takeWithdraw i).rings = p.rings
      ∧ (p.takeWithdraw i).choice = p.choice := by
  unfold Part.takeWithdraw; dsimp only; (repeat' split) <;> simp

@[simp] theorem Part.takeCut_frame (i : Fin 64) :
    (p.takeCut i).hi = p.hi ∧ (p.takeCut i).lk = p.lk ∧ (p.takeCut i).sq = p.sq
      ∧ (p.takeCut i).streams = p.streams ∧ (p.takeCut i).control = p.control ∧ (p.takeCut i).tx = p.tx
      ∧ (p.takeCut i).sf = p.sf ∧ (p.takeCut i).cq = p.cq ∧ (p.takeCut i).cm = p.cm
      ∧ (p.takeCut i).rings = p.rings ∧ (p.takeCut i).choice = p.choice := by
  unfold Part.takeCut; dsimp only; (repeat' split) <;> simp

@[simp] theorem Part.sendHello_frame :
    (p.sendHello).hi = p.hi ∧ (p.sendHello).sq = p.sq ∧ (p.sendHello).streams = p.streams
      ∧ (p.sendHello).control = p.control ∧ (p.sendHello).ib = p.ib ∧ (p.sendHello).tx = p.tx
      ∧ (p.sendHello).sf = p.sf ∧ (p.sendHello).dl = p.dl ∧ (p.sendHello).cq = p.cq ∧ (p.sendHello).cm = p.cm
      ∧ (p.sendHello).rings = p.rings ∧ (p.sendHello).choice = p.choice := by
  unfold Part.sendHello; dsimp only; (repeat' split) <;> simp

@[simp] theorem Part.sendNote_frame :
    (p.sendNote).hi = p.hi ∧ (p.sendNote).streams = p.streams ∧ (p.sendNote).control = p.control
      ∧ (p.sendNote).ib = p.ib ∧ (p.sendNote).tx = p.tx ∧ (p.sendNote).sf = p.sf ∧ (p.sendNote).dl = p.dl
      ∧ (p.sendNote).cq = p.cq ∧ (p.sendNote).cm = p.cm ∧ (p.sendNote).rings = p.rings
      ∧ (p.sendNote).choice = p.choice := by
  unfold Part.sendNote; dsimp only; (repeat' split) <;> simp

@[simp] theorem Part.sendReplay_frame :
    (p.sendReplay).hi = p.hi ∧ (p.sendReplay).streams = p.streams ∧ (p.sendReplay).control = p.control
      ∧ (p.sendReplay).ib = p.ib ∧ (p.sendReplay).tx = p.tx ∧ (p.sendReplay).sf = p.sf ∧ (p.sendReplay).dl = p.dl
      ∧ (p.sendReplay).cq = p.cq ∧ (p.sendReplay).cm = p.cm ∧ (p.sendReplay).rings = p.rings
      ∧ (p.sendReplay).choice = p.choice := by
  unfold Part.sendReplay; dsimp only; (repeat' split) <;> simp

@[simp] theorem Part.sendControl_frame :
    (p.sendControl).hi = p.hi ∧ (p.sendControl).tx = p.tx ∧ (p.sendControl).sf = p.sf
      ∧ (p.sendControl).dl = p.dl ∧ (p.sendControl).cq = p.cq ∧ (p.sendControl).rings = p.rings
      ∧ (p.sendControl).choice = p.choice := by
  unfold Part.sendControl; dsimp only; (repeat' split) <;> simp

@[simp] theorem Part.sendData_frame :
    (p.sendData).hi = p.hi ∧ (p.sendData).control = p.control ∧ (p.sendData).ib = p.ib ∧ (p.sendData).dl = p.dl
      ∧ (p.sendData).cq = p.cq ∧ (p.sendData).cm = p.cm ∧ (p.sendData).rings = p.rings
      ∧ (p.sendData).choice = p.choice := by
  unfold Part.sendData; dsimp only; (repeat' split) <;> simp

@[simp] theorem Part.oldAccessEnds_frame (access : OldAccess) :
    (p.oldAccessEnds access).lk = p.lk ∧ (p.oldAccessEnds access).sq = p.sq
      ∧ (p.oldAccessEnds access).streams = p.streams ∧ (p.oldAccessEnds access).control = p.control
      ∧ (p.oldAccessEnds access).ib = p.ib ∧ (p.oldAccessEnds access).tx = p.tx
      ∧ (p.oldAccessEnds access).sf = p.sf ∧ (p.oldAccessEnds access).dl = p.dl
      ∧ (p.oldAccessEnds access).cq = p.cq ∧ (p.oldAccessEnds access).cm = p.cm
      ∧ (p.oldAccessEnds access).rings = p.rings ∧ (p.oldAccessEnds access).choice = p.choice := by
  cases access <;> exact ⟨rfl, rfl, rfl, rfl, rfl, rfl, rfl, rfl, rfl, rfl, rfl, rfl⟩

@[simp] theorem Part.returnRecord_frame (ring : RingId) :
    (p.returnRecord ring).lk = p.lk ∧ (p.returnRecord ring).sq = p.sq
      ∧ (p.returnRecord ring).streams = p.streams ∧ (p.returnRecord ring).control = p.control
      ∧ (p.returnRecord ring).ib = p.ib ∧ (p.returnRecord ring).tx = p.tx ∧ (p.returnRecord ring).sf = p.sf
      ∧ (p.returnRecord ring).dl = p.dl ∧ (p.returnRecord ring).cq = p.cq ∧ (p.returnRecord ring).cm = p.cm
      ∧ (p.returnRecord ring).choice = p.choice := by
  unfold Part.returnRecord; dsimp only; simp

@[simp] theorem Part.beginRead_frame (ring : RingId) :
    (p.beginRead ring).lk = p.lk ∧ (p.beginRead ring).sq = p.sq ∧ (p.beginRead ring).streams = p.streams
      ∧ (p.beginRead ring).control = p.control ∧ (p.beginRead ring).ib = p.ib ∧ (p.beginRead ring).tx = p.tx
      ∧ (p.beginRead ring).sf = p.sf ∧ (p.beginRead ring).dl = p.dl ∧ (p.beginRead ring).cq = p.cq
      ∧ (p.beginRead ring).cm = p.cm ∧ (p.beginRead ring).choice = p.choice := by
  unfold Part.beginRead; dsimp only; simp

@[simp] theorem Part.readOrHold_frame (ring : RingId) :
    (p.readOrHold ring).lk = p.lk ∧ (p.readOrHold ring).sq = p.sq ∧ (p.readOrHold ring).streams = p.streams
      ∧ (p.readOrHold ring).control = p.control ∧ (p.readOrHold ring).ib = p.ib ∧ (p.readOrHold ring).tx = p.tx
      ∧ (p.readOrHold ring).sf = p.sf ∧ (p.readOrHold ring).dl = p.dl ∧ (p.readOrHold ring).cq = p.cq
      ∧ (p.readOrHold ring).cm = p.cm ∧ (p.readOrHold ring).choice = p.choice := by
  unfold Part.readOrHold; (repeat' split) <;> simp

@[simp] theorem Part.notifyRing_frame (ring : RingId) :
    (p.notifyRing ring).lk = p.lk ∧ (p.notifyRing ring).sq = p.sq ∧ (p.notifyRing ring).streams = p.streams
      ∧ (p.notifyRing ring).control = p.control ∧ (p.notifyRing ring).ib = p.ib ∧ (p.notifyRing ring).tx = p.tx
      ∧ (p.notifyRing ring).sf = p.sf ∧ (p.notifyRing ring).dl = p.dl ∧ (p.notifyRing ring).cq = p.cq
      ∧ (p.notifyRing ring).cm = p.cm ∧ (p.notifyRing ring).choice = p.choice := by
  unfold Part.notifyRing; (repeat' split) <;> simp

end Sys2Proof.Machine
end

