-- ==== Sys2Proof/Laws/Ops.lean ====
section
/-! SUPPORT. What the shared operations do, one lemma an operation: the tests in the words of Safety, and the
operations as the updates they make. -/

namespace Sys2Proof.Machine

/-! ## EVENT, host accesses and timers -/

/-- The interrupt condition, as R162 words it. -/
theorem interruptCondition_iff (p : Part) : interruptCondition p.hi.event p.hi.intMask = true ↔ p.InterruptHolds := by
  have : ∀ e m : BitVec 3, interruptCondition e m = true ↔ ∃ i, i < 3 ∧ e.getLsbD i = true ∧ m.getLsbD i =
      false := by decide
  exact this _ _

/-- A cause sets an EVENT bit and sends at most one message (R161, R162). -/
theorem Part.raise_eq (p : Part) (b : BitVec 3) : ∃ n ≤ 1, p.raise b =
    { p with hi := { p.hi with event := p.hi.event ||| b, interrupts := p.hi.interrupts + n } } := by
  refine ⟨if !interruptCondition p.hi.event p.hi.intMask && interruptCondition
      (p.hi.event ||| b) p.hi.intMask then 1 else 0, by split <;> omega, ?_⟩
  simp only [Part.raise, Part.setEventMask]; congr 2; split <;> rfl

/-- Data of the length asked for answers a read. -/
theorem readAnswers_of_hasLength {r : ReadEnd} {n} (h : r.hasLength n = true) : readAnswers r n = true := by
  cases r with
  | data => simpa [ReadEnd.hasLength, readAnswers] using h
  | failed => rfl

/-- An access that is in flight. -/
theorem access_of_ne_none {p : Part} {k : AccessKind} (h : p.access? k ≠ none) : ∃ a, p.access? k = some a := by
  cases h' : p.access? k with
  | none => exact absurd h' h
  | some a => exact ⟨a, rfl⟩

/-! ## Arrivals -/

/-- The check of R30. -/
theorem helloValid_iff (h : HelloParcel) : HelloValid h = true ↔ HelloInRange h := by
  simp [HelloValid, and_assoc, HelloInRange]

/-- The payload size in force (R37). -/
theorem payloadBytes_min (a b : Nat) : min (payloadBytes a) (payloadBytes b) = 128 * 2 ^ min a b := by
  unfold payloadBytes
  rcases Nat.le_total a b with h | h
  · rw [Nat.min_eq_left h, Nat.min_eq_left]; exact Nat.mul_le_mul_left _ (Nat.pow_le_pow_right (by omega) h)
  · rw [Nat.min_eq_right h, Nat.min_eq_right]; exact Nat.mul_le_mul_left _ (Nat.pow_le_pow_right (by omega) h)

/-- The part listens (R29). -/
theorem Part.listens_iff (p : Part) : p.listens = true ↔ p.Listening := by simp [Part.listens, Part.Listening]

/-- Acceptance (R48, R49). -/
theorem Part.acceptNumber_eq (p : Part) : p.acceptNumber = p.accepted := by
  unfold Part.acceptNumber Part.accepted
  dsimp only
  have h1 : (if 8 ≤ countUp 255 p.sq.unacknowledged then p.sq.note.withAck else p.sq.note) =
      if 8 ≤ countUp 255 p.sq.unacknowledged ∧ p.sq.note = .none then .ack else p.sq.note := by
    cases h : p.sq.note <;> simp [Note.withAck]
  have h2 : (if 8 ≤ countUp 255 p.sq.unacknowledged then p.sq.ackTimer else p.sq.ackTimer.startIfIdle p.cm.timers.ackDelay) = if countUp 255 p.sq.unacknowledged < 8 ∧ p.sq.ackTimer = .idle then .running p.cm.timers.ackDelay else p.sq.ackTimer := by
    by_cases h : countUp 255 p.sq.unacknowledged < 8
    · rw [if_neg (by omega)]; cases h' : p.sq.ackTimer <;> simp [Timer.startIfIdle, h]
    · rw [if_pos (by omega)]; simp [h]
  rw [h1, h2]

/-- A parcel with the expected number is delivered after its acceptance (R48). -/
theorem Part.sequencedArrives_expected {p : Part} (h : p.Listening) (f) : p.sequencedArrives p.sq.expected f =
    f p.accepted := by
  simp [Part.sequencedArrives, (Part.listens_iff p).2 h, Part.acceptNumber_eq]

/-- A parcel that is not accepted is delivered to no unit (R48). -/
theorem Part.sequencedArrives_dropped {p : Part} {n} (h : ¬(p.Listening ∧ n = p.sq.expected)) (f g) :
    p.sequencedArrives n f = p.sequencedArrives n g := by
  unfold Part.sequencedArrives
  split
  · rfl
  · rename_i hl
    have : p.Listening := by rw [← Part.listens_iff]; simpa using hl
    have : n ≠ p.sq.expected := fun e => h ⟨this, e⟩
    simp [this]

/-- A number behind the expected one (R50). -/
theorem Sequencing.behind_eq (q : Sequencing) (w n) (h : n ≠ q.expected) : q.behind w n = decide
    ((q.expected - n).toNat ≤ w) := by
  have : 1 ≤ (q.expected - n).toNat := by
    have : q.expected - n ≠ 0 := by
      intro h'; apply h; have := BitVec.sub_add_cancel q.expected n; rw [h'] at this; simpa using this
    have h2 : (q.expected - n).toNat ≠ 0 := fun h3 => this (by apply BitVec.eq_of_toNat_eq; simpa using h3)
    omega
  simp only [Sequencing.behind, forward, this, decide_true, Bool.true_and]; congr

/-- An ACK is noted where no note waits (R52). -/
theorem Note.withAck_eq (n : Note) : n.withAck = if n = .none then .ack else n := by cases n <;> rfl

/-- A link-wide protocol error (R30). -/
theorem Part.linkProtocolError_eq (p : Part) (c) : p.linkProtocolError c = { p with lk := p.lk.withError c } := rfl

/-- A protocol error on a stream (R21). -/
theorem Part.streamProtocolError_eq (p : Part) (i c) : p.streamProtocolError i c = p.withStreamError i c := rfl

/-- A parcel that names a stream reaches it. -/
theorem Part.toStream_val (p : Part) (i : Fin 64) (f) : p.toStream i.val f = f i := by simp [Part.toStream, index?]

/-- The check of R6. -/
theorem grantValid_iff (g) : GrantValid g = true ↔ GrantInRange g := by simp [GrantValid, GrantInRange, and_assoc]

/-- A GRANT that differs from the allotment on record (R6). -/
theorem StreamEntry.mismatch_iff (e : StreamEntry) (g) : (e.recordedAllotment.any fun a => decide
    (a ≠ g.allotment)) = true ↔ ¬ e.Agrees g := by
  unfold StreamEntry.recordedAllotment StreamEntry.Agrees
  split
  · simp
  · cases e.offer <;> simp

/-- What queueing a WITHDRAW does to the control queue (R25). -/
theorem Part.queueWithdraw_eq (p : Part) (i) : p.queueWithdraw i =
    { p with
      control := (p.control.filter fun x => !(x.isGrantOf i || x.isCutOf i))
        ++ if p.withdrawWaits i then [] else [.withdraw i] } := by
  unfold Part.queueWithdraw; dsimp only; split <;> simp

/-- The quiet condition (R3). -/
theorem Part.quiet_iff (p : Part) (i) :
    p.quiet i = true ↔ ((p.stream i).sendLine = [] ∧ (p.landRing
    (p.stream i).landingRing).holder ≠ some i ∧ i ∉ (p.landRing (p.stream i).landingRing).claimQueue) := by
  simp [Part.quiet, Part.claims, List.isEmpty_iff]
  intro _ _; constructor
  · intro h hi; exact h _ hi rfl
  · intro h x hx hxi; exact h (hxi ▸ hx)

/-- The entries an acknowledged number removes (R56). -/
theorem Sequencing.before_eq (q : Sequencing) (n) : q.before n = q.replay.take (n - q.oldest).toNat := rfl

/-- A number within the replay list (R57). -/
theorem Sequencing.within_iff (q : Sequencing) (n) : q.within n = true ↔ (n - q.oldest).toNat ≤
    (q.next - q.oldest).toNat := by
  simp only [Sequencing.within, forward]; exact decide_eq_true_iff

/-! ## Transmission -/

/-- With the framer open TX may begin a transmission (R108). -/
theorem Part.mayTransmit_of_open {p : Part} (h : p.FramerOpen) : p.mayTransmit = true := by
  obtain ⟨a, b, c⟩ := h; simp [Part.mayTransmit, Part.running, a, b, c]

/-- The replay slot holds an entry's payload. -/
theorem ReplaySlot.readyFor_iff (sl : ReplaySlot) (n) (pl) : sl.readyFor n = some pl ↔ sl = .ready n pl := by
  cases sl <;> simp [ReplaySlot.readyFor]

/-- With nothing higher in the order ready (R108, R109). -/
theorem Part.MaySequence.tests {p : Part} (h : p.MaySequence) : p.helloReady = false ∧ p.noteReady = false
    ∧ p.replayReady = false ∧ p.mayTransmit = true ∧ p.lk.state = .up ∧ p.roomForNew = true := by
  obtain ⟨a, b, c, d, e, f⟩ := h
  refine ⟨by simp [Part.helloReady,
      c], by simp [Part.noteReady, d], by simp [Part.replayReady, Part.rewindEntry, e], Part.mayTransmit_of_open a, b, by simp [Part.roomForNew, e, f]⟩

/-- A number given to a new parcel (R55). -/
theorem Part.number_eq (p : Part) (c) : p.number c = { p with sq := p.numbered c } := by
  unfold Part.number Part.numbered; cases h : p.sq.replay <;> simp

/-- Eligibility (R111). -/
theorem Part.eligible_iff (p : Part) (c) : p.eligible c = true ↔ p.Eligible c := by
  unfold Part.eligible Part.Eligible
  simp only [Bool.and_eq_true, Bool.or_eq_true, decide_eq_true_eq]
  apply and_congr_right; intro _
  unfold index?
  split
  · rename_i h; split at h
    · cases h
    · constructor
      · intro h; cases h
      · rintro ⟨i, hi, _⟩; omega
  · rename_i i h; split at h
    · rename_i hlt; cases h
      simp only [Bool.and_eq_true, decide_eq_true_eq]
      constructor
      · rintro ⟨⟨h1, h2⟩, h3⟩; exact ⟨_, rfl, h1, h2, h3⟩
      · rintro ⟨j, hj, h1, h2, h3⟩
        have : j = ⟨_, hlt⟩ := Fin.ext hj.symm
        subst this; exact ⟨⟨h1, h2⟩, h3⟩
    · cases h

/-- The context picked within a ring (R114). -/
theorem Part.ringPick_iff (p : Part) (r c) : p.ringPick r = some c ↔ ∃ before after, p.sf.fetchOrder.get r =
    before ++ c :: after ∧ p.Eligible c ∧ ∀ x ∈ before, ¬p.Eligible x := by
  simp only [Part.ringPick, List.find?_eq_some_iff_append, Part.eligible_iff, Bool.not_eq_true', ← Bool.not_eq_true]
  constructor
  · rintro ⟨h, as, bs, h1, h2⟩; exact ⟨as, bs, h1, h, h2⟩
  · rintro ⟨as, bs, h1, h, h2⟩; exact ⟨h, as, bs, h1, h2⟩

/-- A ring without an eligible context. -/
theorem Part.ringPick_none (p : Part) (r) : p.ringPick r = none ↔ ∀ x ∈ p.sf.fetchOrder.get r, ¬p.Eligible x := by
  simp [Part.ringPick, List.find?_eq_none, Part.eligible_iff]

/-- A weighted ring has an eligible context (R112). -/
theorem Part.weightedBusy_iff (p : Part) : p.weightedBusy = true ↔ ∃ r ∈ [1, 2, 3], ∃ c ∈ p.sf.fetchOrder.get r,
    p.Eligible c := by
  unfold Part.weightedBusy
  rw [List.any_eq_true]
  apply exists_congr; intro r; apply and_congr_right; intro _
  rw [Option.isSome_iff_ne_none, Ne, Part.ringPick_none]; simp

/-- The accesses of host reads, numbered in order. -/
theorem readAccesses_eq (kind : Nat → AccessKind) (reads) : ∀ k, readAccesses kind k reads = reads.mapIdx
    fun j r => ⟨kind (k + j), r.address, r.length, []⟩ := by
  induction reads with
  | nil => intro k; rfl
  | cons r rest ih => intro k; simp [readAccesses, ih, List.mapIdx_cons, Nat.add_assoc, Nat.add_comm 1]

/-- Each host read of a payload lies within one fragment (R61, R115). -/
theorem payloadReads_within (frs : List Fragment) : ∀ o n, ∀ r ∈ payloadReads frs o n, r.result = none
    ∧ 1 ≤ r.length ∧ ∃ f ∈ frs, ∃ o, r.address = f.address + BitVec.ofNat 64 o ∧ o + r.length ≤ f.length := by
  induction frs with
  | nil => intro o n r h; simp [payloadReads] at h
  | cons f rest ih =>
    intro o n r h
    unfold payloadReads at h
    split at h
    · simp at h
    · split at h
      · obtain ⟨a, b, f', hf, x⟩ := ih _ _ r h
        exact ⟨a, b, f', by simp [hf], x⟩
      · simp only [List.mem_cons] at h
        rcases h with rfl | h
        · refine ⟨rfl, ?_, f, by simp, o, rfl, ?_⟩ <;> simp only <;> omega
        · obtain ⟨a, b, f', hf, x⟩ := ih _ _ r h
          exact ⟨a, b, f', by simp [hf], x⟩

/-- Every read has ended (R116). -/
theorem readsEnded_iff (reads : List HostRead) : readsEnded reads = true ↔ ∀ r ∈ reads, r.result ≠ none := by
  simp [readsEnded, List.all_eq_true, Option.isSome_iff_ne_none]

/-- The payload of reads that all succeeded. -/
theorem readsPayload_of_data (reads : List HostRead) : ∀ parts : List (List Byte), reads.map HostRead.result =
    parts.map (fun b => some (.data b)) → readsPayload reads = some parts.flatten ∧ readsEnded reads = true := by
  induction reads with
  | nil => intro parts h; cases parts with
    | nil => simp [readsPayload, readsEnded]
    | cons => simp at h
  | cons r rest ih =>
    intro parts h
    cases parts with
    | nil => simp at h
    | cons a as =>
      simp only [List.map_cons, List.cons.injEq] at h
      obtain ⟨h1, h2⟩ := ih as h.2
      refine ⟨?_, ?_⟩
      · simp [readsPayload, h.1, h1]
      · simp [readsEnded] at h2 ⊢; exact ⟨by simp [h.1], h2⟩

/-- A read that failed leaves no payload. -/
theorem readsPayload_of_failed (reads : List HostRead) (h : ∃ r ∈ reads, r.result = some .failed) :
    readsPayload reads = none := by
  induction reads with
  | nil => simp at h
  | cons r rest ih =>
    unfold readsPayload
    obtain ⟨x, hx, hf⟩ := h
    simp only [List.mem_cons] at hx
    rcases hx with rfl | hx
    · simp [hf]
    · rw [ih ⟨x, hx, hf⟩]; cases r.result with
      | none => rfl
      | some v => cases v <;> rfl

/-! ## Rings and records -/

/-- What the copy of a record does to its ring (R89). -/
theorem Part.returnRecord_eq (p : Part) (ring : RingId) : (p.endAccess (.ringRead ring)).returnRecord ring =
    p.afterCopy ring := by
  cases ring <;> rfl

/-- The custody byte (R195). -/
theorem recordIsPart_iff (r : List Byte) : recordIsPart r = true ↔ fieldAt r 0x1F 1 = 0xA5 := by
  simp [recordIsPart, custodyPart]

/-- A copy is returned, used by its unit, and CQ takes what the unit offers. -/
theorem Part.takeCopy_eq (p : Part) (copy : Copy) : (p.endAccess (.ringRead copy.ring)).takeCopy copy =
    ((p.afterCopy copy.ring).useCopy (p.consumer copy.ring).position copy).settle := by
  unfold Part.takeCopy
  rw [Part.returnRecord_eq]; congr 2

/-- A record row with its read in flight. -/
theorem Part.recordArrives_eq {s : State} {copy : Copy} (h : s.ReadInFlight copy.ring) :
    s.toPart.recordArrives copy = ((s.afterCopy copy.ring).useCopy (s.consumer copy.ring).position copy).settle := by
  obtain ⟨hr, a, ha⟩ := h
  unfold Part.recordArrives Part.onAccessEnd
  rw [ha]; simp only [hr, if_true, Part.takeCopy_eq]

/-- The contexts of a send ring (R93). -/
theorem mem_ringContexts (r : Fin 4) (c : Fin 32) : c ∈ ringContexts r ↔ c.val / 8 = r.val := by
  revert r c; decide

/-- A ring with a context in FILLING. -/
theorem Part.filling_isSome (p : Part) (r) : (p.filling? r).isSome = true ↔ ∃ c : Fin 32, c.val / 8 = r.val ∧
    (p.context c).state = .filling := by
  simp [Part.filling?, List.find?_isSome, mem_ringContexts]

/-- A ring with a FREE context. -/
theorem Part.freeContext_isSome (p : Part) (r) : (p.freeContext? r).isSome = true ↔ ∃ c : Fin 32, c.val / 8 =
    r.val ∧ (p.context c).state = .free := by
  simp [Part.freeContext?, List.find?_isSome, mem_ringContexts]

/-- The contexts of a ring below a given one. -/
theorem ringContexts_before (r : Fin 4) (c : Fin 32) (h : c.val / 8 = r.val) : ∃ as bs, ringContexts r =
    as ++ c :: bs ∧ ∀ x ∈ as, x.val / 8 = r.val ∧ x < c := by
  refine ⟨(ringContexts r).takeWhile (· ≠ c), ((ringContexts r).dropWhile (· ≠ c)).tail, ?_, ?_⟩
  · revert r c; decide
  · revert r c; decide

/-- The lowest-numbered FREE context of a ring (R94). -/
theorem Part.freeContext_eq {p : Part} {r : Fin 4} {c : Fin 32} (h : c.val / 8 = r.val ∧ (p.context c).state =
    .free ∧ ∀ c' : Fin 32, c'.val / 8 = r.val → c' < c → (p.context c').state ≠ .free) : p.freeContext? r =
    some c := by
  obtain ⟨h1, h2, h3⟩ := h
  obtain ⟨as, bs, e, hb⟩ := ringContexts_before r c h1
  rw [Part.freeContext?, List.find?_eq_some_iff_append]
  refine ⟨by simp [h2], as, bs, e, ?_⟩
  intro x hx; simpa using h3 x (hb x hx).1 (hb x hx).2

/-- A context with its outcome (R105). -/
theorem Part.completeContext_eq (p : Part) (c) (o) : p.completeContext c o =
    { p with sf := p.sf.completed c o } := rfl

/-- The parcel count is the quotient rounded up (R98). -/
theorem parcelCount_bounds (t n : Nat) (h : 1 ≤ n) : t ≤ parcelCount t n * n ∧ parcelCount t n * n < t + n := by
  unfold parcelCount
  have := Nat.div_add_mod (t + n - 1) n
  have h2 := Nat.mod_lt (t + n - 1) h
  rw [Nat.mul_comm] at this
  omega

/-! ## Completions -/

/-- CQ may begin a write (R147). -/
theorem Part.mayWrite_iff (p : Part) : p.mayWrite = true ↔ p.MayWrite := by
  simp [Part.mayWrite, Part.MayWrite, Part.running, and_assoc]

/-- A completion goes straight into the ring (R155). -/
theorem Part.straight_iff (p : Part) : p.straight = true ↔ p.MayWrite ∧ p.cq.list = [] ∧ p.anyFlag = false := by
  simp [Part.straight, Part.mayWrite_iff, and_assoc]

/-- The beginning of a write (R147). -/
theorem Part.beginWrite_eq (p : Part) (r) : p.beginWrite r = p.writeBegun r := rfl

/-- The first number that passes a test. -/
theorem find_numbers (n : Nat) (f : Fin n → Bool) (i) : (numbers n).find? f = some i ↔ f i = true ∧ ∀ j, j < i →
    f j = false := by
  have hsorted : (numbers n).Pairwise (· < ·) := List.pairwise_lt_finRange n
  have hmem : ∀ j, j ∈ numbers n := fun j => List.mem_finRange j
  rw [List.find?_eq_some_iff_append]
  constructor
  · rintro ⟨h, as, bs, e, hb⟩
    refine ⟨h, fun j hj => ?_⟩
    rw [e] at hsorted
    have hjm := hmem j
    rw [e, List.mem_append, List.mem_cons] at hjm
    rw [List.pairwise_append, List.pairwise_cons] at hsorted
    rcases hjm with hjm | rfl | hjm
    · simpa using hb j hjm
    · exact absurd hj (Fin.lt_irrefl _)
    · exact absurd (hsorted.2.1.1 j hjm) (by omega)
  · rintro ⟨h, hb⟩
    refine ⟨h, ?_⟩
    obtain ⟨as, bs, e⟩ := List.append_of_mem (hmem i)
    refine ⟨as, bs, e, fun x hx => ?_⟩
    rw [e, List.pairwise_append] at hsorted
    simpa using hb x (hsorted.2.2 x hx i (List.mem_cons_self ..))

/-- No number passes a test. -/
theorem find_numbers_none (n : Nat) (f : Fin n → Bool) : (numbers n).find? f = none ↔ ∀ j, f j = false := by
  simp [numbers]

/-- The producers that offer a completion (R155). -/
theorem Part.mem_offering (p : Part) (w) : w ∈ p.offering ↔ (p.offer? w).isSome := by
  cases w <;> simp [Part.offering]

/-- The offer that CQ takes is one of those made, and only the counter of free values moves. -/
theorem Part.chooseOffer_some {p : Part} {w q} (h : p.chooseOffer = some (w, q)) : (p.offer? w).isSome ∧ ∃ n, q =
    { p with choice := n } := by
  unfold Part.chooseOffer at h
  split at h
  · cases h
  · rename_i w' hw; cases h
    exact ⟨(Part.mem_offering _ _).1 (by rw [hw]; simp), _, rfl⟩
  · rename_i w' ws _ hw
    simp only [Option.some.injEq, Prod.mk.injEq] at h
    refine ⟨?_, _, h.2.symm⟩
    rw [← h.1]
    apply (Part.mem_offering _ _).1
    rw [hw]
    have hlt : Config.offerPick p.choice % (w' :: ws).length < (w' :: ws).length := Nat.mod_lt _ (by simp)
    rw [List.getD_eq_getElem?_getD, List.getElem?_eq_getElem hlt]
    exact List.getElem_mem hlt

/-- No offer to take. -/
theorem Part.chooseOffer_none {p : Part} (h : p.chooseOffer = none) : p.offering = [] := by
  unfold Part.chooseOffer at h
  split at h
  · assumption
  · cases h
  · cases h

/-! ## Commands -/

/-- A command row with its record read in flight (R165). -/
theorem Part.recordArrives_command {s : State} (h : s.ReadInFlight .command) (tag) (command : Command) :
    (s.apply fun p => p.recordArrives (.command tag command)) = s.become (Part.act
    (s.commandTaken tag command .acting) command).settle := by
  simp only [State.apply, State.become, Part.recordArrives_eq (copy := .command tag command) h]
  congr 4

/-- A command completed as it is taken. -/
theorem Part.completeCommand_taken (s : State) (tag command) (st : Status) :
    (s.commandTaken tag command .acting).completeCommand st = s.commandTaken tag command (.offered st) := by
  simp [Part.completeCommand, Part.commandTaken]

/-- What every close begins with (R13, R15). -/
theorem Part.startClosing_eq (p : Part) (i) : p.startClosing i =
    { p with
      streams := p.streams.set i
        { p.stream i with
          state := .closing, closeWaiting := true, peerAllotment := 0, peerMaxMessage := 0, credits := 0 }
      control := (p.control.filter fun x => !(x.isGrantOf i || x.isCutOf i))
        ++ (if p.withdrawWaits i then [] else [.withdraw i]) } := by
  simp only [Part.startClosing, Part.queueWithdraw, Part.modStream, Table.modify, Part.stream, Part.withdrawWaits]
  congr 1
  by_cases h : p.control.any (ControlEntry.isWithdrawOf i) = true
  · simp only [h, if_true, List.append_nil]
  · simp only [h, Bool.false_eq_true, if_false]

/-- A close while the first GRANT is still queued (R14). -/
theorem Part.cancelGrant_eq (p : Part) (i) : (((p.removeGrant i).release i).modStream i StreamEntry.cleared) =
    { p with
    streams := p.streams.set i (p.stream i).cleared, ib := { p.ib with reservedTotal := p.ib.reservedTotal -
        (p.stream i).allotment }, control := p.control.filter fun x => !x.isGrantOf i } := by
  simp [Part.removeGrant, Part.release, Part.modStream, Table.modify, Part.stream, StreamEntry.cleared]

/-! ## Delivery -/

/-- The end of a message (R135, R144). -/
theorem Part.endMessage_eq (p : Part) (i st m) : p.endMessage i st m = p.messageEnded i st m := by
  simp [Part.endMessage, Part.messageEnded, Part.postMessage, Part.modLandRing, Table.modify, Part.modStream,
      Part.landRing, StreamEntry.messageCompletion, Part.stream]

/-- A busy stream (R124). -/
theorem Part.busy_iff (p : Part) (i) : p.busy i = true ↔ p.Busy i := by
  simp only [Part.busy, Part.Busy, LandingRing.lands, Part.ringOf, Bool.or_eq_true, Bool.and_eq_true,
      decide_eq_true_eq, Option.any_eq_true, Option.isSome_iff_ne_none]
  exact or_congr Iff.rfl (and_congr decide_eq_true_iff Iff.rfl)

/-- A buffer is available (R132). -/
theorem LandingRing.bufferAvailable_iff (g : LandingRing) : g.bufferAvailable = true ↔ g.BufferAvailable := by
  simp only [LandingRing.bufferAvailable, LandingRing.BufferAvailable, LandingRing.hasRoom, Bool.or_eq_true,
      Option.any_eq_true, decide_eq_true_eq, List.any_eq_true]
  apply or_congr Iff.rfl
  constructor
  · rintro ⟨x, hx, h⟩
    cases x with
    | usable s a n => exact ⟨s, a, n, hx⟩
    | rejected s => simp [CacheEntry.isUsable] at h
  · rintro ⟨s, a, n, h⟩; exact ⟨_, h, rfl⟩

/-- A free ring (R123). -/
theorem LandingRing.isFree_iff (g : LandingRing) : g.isFree = true ↔ g.Free := by
  simp [LandingRing.isFree, LandingRing.Free, and_assoc]

/-- DL would write the head of a queue (R128, R132). -/
theorem Part.wouldWrite_iff (p : Part) (i) : p.wouldWrite i = true ↔ ∃ d rest, p.queue i = .data d :: rest
    ∧ p.WouldWrite i d := by
  unfold Part.wouldWrite
  dsimp only
  split
  · rename_i d rest hq
    split
    · rename_i hm
      simp [hq, Part.WouldWrite, hm, and_assoc]
    · rename_i hm
      simp [hq, Part.WouldWrite, Part.ringOf]
      have : ¬ (p.stream i).reassembly.mode = .assembling := by intro h; exact hm h
      simp [this]
      exact fun _ => decide_eq_true_iff
  · rename_i h
    constructor
    · intro h; cases h
    · rintro ⟨d, rest, hq, _⟩; exact absurd hq (h d rest)

/-- A stream that holds a claim or waits for it. -/
theorem Part.claims_iff (p : Part) (i) : p.claims i = true ↔ (p.landRing (p.stream i).landingRing).holder =
    some i ∨ i ∈ (p.landRing (p.stream i).landingRing).claimQueue := by
  simp [Part.claims]

/-- A stream that asks for a claim (R129). -/
theorem Part.mayAsk_iff (p : Part) (i) : p.mayAsk i = true ↔ ((∃ d rest, p.queue i = .data d :: rest ∧ d.index =
    0) ∧ (p.stream i).reassembly.mode ≠ .assembling
      ∧ ¬p.Busy i ∧ (p.landRing (p.stream i).landingRing).holder ≠ some i ∧ i ∉ (p.landRing
          (p.stream i).landingRing).claimQueue) := by
  unfold Part.mayAsk
  split
  · rename_i d rest hq
    simp only [hq, Bool.and_eq_true, decide_eq_true_eq, Bool.not_eq_true', ← Bool.not_eq_true, Part.busy_iff,
        Part.claims_iff]
    constructor
    · rintro ⟨⟨⟨a, b⟩, c⟩, d⟩
      exact ⟨⟨_, _, rfl, a⟩, b, c, fun h => d (.inl h), fun h => d (.inr h)⟩
    · rintro ⟨⟨d', r', e, a⟩, b, c, d, e'⟩
      cases e
      exact ⟨⟨⟨a, b⟩, c⟩, fun h => h.elim d e'⟩
  · rename_i h
    constructor
    · intro h; cases h
    · rintro ⟨⟨d, rest, hq, _⟩, _⟩; exact absurd hq (h d rest)

/-- The gap timer's conditions (R140). -/
theorem Part.gapWaits_iff (p : Part) (r) : p.gapWaits r = true ↔ ∃ i, (p.landRing r).holder = some i ∧
    (p.stream i).reassembly.mode = .assembling ∧ (p.landRing r).landing = none
        ∧ (p.landRing r).waiting = none ∧ p.queue i = [] := by
  unfold Part.gapWaits
  dsimp only
  split
  · rename_i h; simp [h]
  · rename_i i h; simp [h, and_assoc]

/-- A deliverable head (R132). -/
theorem Part.deliverable_iff (p : Part) (i) : p.deliverable i = true ↔ p.Deliverable i := by
  unfold Part.deliverable Part.Deliverable
  dsimp only
  rw [Bool.and_eq_true, Bool.not_eq_true', ← Bool.not_eq_true, Part.busy_iff]
  apply and_congr Iff.rfl
  cases hq : p.queue i with
  | nil => simp
  | cons head rest =>
    cases head with
    | cutMarker => simp
    | withdrawMarker => simp
    | data d =>
      simp only [List.cons.injEq]
      have key : (∃ head rest_1, (InboundEntry.data d = head ∧ rest = rest_1) ∧ ∀ d_1, head =
          InboundEntry.data d_1 → (p.WouldWrite i d_1 ∧ (p.landRing (p.stream i).landingRing).BufferAvailable) ∨
          ((p.stream i).reassembly.mode ≠ .assembling ∧ d_1.index ≠ 0) ∨ ((p.stream i).reassembly.mode =
          .assembling ∧ (d_1.index = 0 ∨ d_1.index ≠ (p.stream i).reassembly.expected ∨ (p.stream i).maxInbound ≤
          (p.stream i).reassembly.bytesSoFar))) ↔ ((p.WouldWrite i d ∧ (p.landRing
          (p.stream i).landingRing).BufferAvailable) ∨ ((p.stream i).reassembly.mode ≠ .assembling ∧ d.index ≠ 0)
          ∨ ((p.stream i).reassembly.mode = .assembling ∧ (d.index = 0 ∨ d.index ≠
          (p.stream i).reassembly.expected ∨ (p.stream i).maxInbound ≤ (p.stream i).reassembly.bytesSoFar))) := by
        constructor
        · rintro ⟨_, _, ⟨rfl, rfl⟩, h⟩; exact h d rfl
        · intro h; refine ⟨_, _, ⟨rfl, rfl⟩, ?_⟩; rintro d' hd; cases hd; exact h
      rw [key]
      have hb : ((p.ringOf i).bufferAvailable = true) ↔ (p.landRing
          (p.stream i).landingRing).BufferAvailable := LandingRing.bufferAvailable_iff _
      cases hm : (p.stream i).reassembly.mode with
      | assembling =>
        simp only [Bool.or_eq_true, decide_eq_true_eq, Bool.if_true_left]
        have hww : p.WouldWrite i d ↔ (d.index ≠ 0 ∧ d.index = (p.stream i).reassembly.expected ∧
            (p.stream i).reassembly.bytesSoFar < (p.stream i).maxInbound) := by
          simp [Part.WouldWrite, hm]
        rw [hww, hb]
        constructor
        · rintro ((h | h) | h)
          · right; right; refine ⟨trivial, ?_⟩; rcases h with h | h
            · exact .inl h
            · exact .inr (.inl h)
          · exact .inr (.inr ⟨trivial, .inr (.inr h)⟩)
          · by_cases h1 : d.index = 0
            · exact .inr (.inr ⟨trivial, .inl h1⟩)
            · by_cases h2 : d.index = (p.stream i).reassembly.expected
              · by_cases h3 : (p.stream i).maxInbound ≤ (p.stream i).reassembly.bytesSoFar
                · exact .inr (.inr ⟨trivial, .inr (.inr h3)⟩)
                · exact .inl ⟨⟨h1, h2, by omega⟩, h⟩
              · exact .inr (.inr ⟨trivial, .inr (.inl h2)⟩)
        · rintro (⟨_, h⟩ | ⟨h, _⟩ | ⟨_, h | h | h⟩)
          · exact .inr h
          · exact absurd rfl h
          · exact .inl (.inl (.inl h))
          · exact .inl (.inl (.inr h))
          · exact .inl (.inr h)
      | _ =>
        have hww : p.WouldWrite i d ↔ (d.index = 0 ∧ (p.ringOf i).holder = some i) := by
          simp [Part.WouldWrite, hm, Part.ringOf]
        rw [hww, ← hb]
        by_cases h0 : d.index = 0
        · simp only [h0, ne_eq, not_true_eq_false, if_false, Bool.and_eq_true, true_and, and_false, false_or]
          simp
        · simp [h0]

/-- The first deliverable stream after the pointer (R132). -/
theorem Part.nextDeliverable_eq {p : Part} {i} (h : p.Deliverable i) (hm : ∀ j, p.Deliverable j →
    (i - p.dl.pointer - 1).val ≤ (j - p.dl.pointer - 1).val) : p.nextDeliverable = some i := by
  unfold Part.nextDeliverable
  rw [List.find?_map]
  have : (numbers 64).find? (p.deliverable ∘ fun k => p.dl.pointer + 1 + k) = some (i - p.dl.pointer - 1) := by
    rw [find_numbers]
    have e : p.dl.pointer + 1 + (i - p.dl.pointer - 1) = i := by
      apply Fin.ext; simp [Fin.add_def, Fin.sub_def]; omega
    refine ⟨by simp only [Function.comp, e]; exact (Part.deliverable_iff _ _).2 h, fun j hj => ?_⟩
    rw [Bool.eq_false_iff]
    intro hd
    have := hm _ ((Part.deliverable_iff _ _).1 hd)
    have e2 : p.dl.pointer + 1 + j - p.dl.pointer - 1 = j := by
      apply Fin.ext; simp [Fin.add_def, Fin.sub_def]; omega
    rw [e2] at this
    exact absurd hj (by rw [Fin.lt_def]; omega)
  rw [this]
  have e : p.dl.pointer + 1 + (i - p.dl.pointer - 1) = i := by
    apply Fin.ext; simp [Fin.add_def, Fin.sub_def]; omega
  simp [e]

/-- No deliverable stream. -/
theorem Part.nextDeliverable_none {p : Part} (h : ∀ i, ¬p.Deliverable i) : p.nextDeliverable = none := by
  unfold Part.nextDeliverable
  rw [List.find?_eq_none]
  intro x _ hx; exact h x ((Part.deliverable_iff _ _).1 hx)

end Sys2Proof.Machine
end

