-- ==== Sys2Proof/Tests/Slice0.lean ====
section
/-! SUPPORT. Tests: what well-formedness refuses, the layouts of Record and Parcel Formats written out byte by byte,
single steps, and for each statement with hypotheses a state that meets them, clause by clause. -/

namespace Sys2Proof.Tests

open Machine

set_option maxRecDepth 100000

/-! ## Small states -/

/-- Rings of four records each, weights 2, 1, 1, a burst limit of 2 and a threshold of 2. -/
def conf : ConfigCopy :=
  { command := ⟨0x1000, 4⟩, send := .fill 4 ⟨0x2000, 4⟩, landing := .fill 8 ⟨0x3000, 4⟩, completion := ⟨0x4000, 8⟩
    weight1 := 2, weight2 := 1, weight3 := 1, burstLimit := 2, threshold := 2, holdoff := 5 }

/-- A RUNNING part with its link OFFLINE. -/
def run : State := { hi := { deviceState := .running, enable := true, config := conf }, cq := { free := 7 } }

/-- A RUNNING part with its link UP, a payload size of 128 and a window of 16. -/
def up : State :=
  { run with lk :=
    { state := .up, signalPresent := true, localEpoch := 1, peerEpoch := 1, payloadSize := 128, window := 16 } }

/-- With the link controller changed. -/
def lkOf (s : State) (f : Link → Link) : State := { s with lk := f s.lk }

/-- With the sequencing unit changed. -/
def sqOf (s : State) (f : Sequencing → Sequencing) : State := { s with sq := f s.sq }

/-- With stream 5's entry. -/
def s5 (s : State) (e : StreamEntry) : State := { s with streams := s.streams.set 5 e }

/-- With stream 5's inbound queue. -/
def q5 (s : State) (q : List InboundEntry) : State := { s with ib := { s.ib with queues := s.ib.queues.set 5 q } }

/-- With send context `c`. -/
def ctx (s : State) (c : Fin 32) (x : Context) : State :=
  { s with sf := { s.sf with contexts := s.sf.contexts.set c x } }

/-- With landing ring 0. -/
def land (s : State) (r : LandingRing) : State := { s with dl := { s.dl with rings := s.dl.rings.set 0 r } }

/-- With one access in flight. -/
def acc (s : State) (k : AccessKind) (n : Nat) : State :=
  { s with hi := { s.hi with accesses := [⟨k, 0x1000, n, []⟩] } }

/-- With a command in progress. -/
def cmd (s : State) (c : Command) (ph : Phase) : State := { s with cm := { s.cm with command := some ⟨c, 9, ph⟩ } }

/-! ## What well-formedness refuses, one term for each check -/

theorem test_wf_reset : (Instr.controlReset 1).wellFormed = false := by decide
theorem test_wf_enable_reset : (Instr.controlEnable 3).wellFormed = false := by decide
theorem test_wf_enable_zero : (Instr.controlEnable 0).wellFormed = false := by decide
theorem test_wf_disable_reset : (Instr.controlDisable 2).wellFormed = false := by decide
theorem test_wf_disable_one : (Instr.controlDisable 1).wellFormed = false := by decide
theorem test_wf_offset_row : (Instr.registerWriteOther 0x1C 0).wellFormed = false := by decide
theorem test_wf_offset_aligned : (Instr.registerWriteOther 0x15 0).wellFormed = false := by decide
theorem test_wf_ring_selector : (Instr.ringNotify 0x30).wellFormed = false := by decide
theorem test_wf_completion_selector : (Instr.completionReturn 0x27).wellFormed = false := by decide
theorem test_wf_invalid_selector : (Instr.notifyInvalidSelector 0x13).wellFormed = false := by decide
theorem test_wf_config_length : (Instr.configReadEnd (.data [0])).wellFormed = false := by decide
theorem test_wf_data_stream : (Instr.dataArrival 0 ⟨256, 0, true, true, 0, [1]⟩).wellFormed = false := by decide
theorem test_wf_data_index : (Instr.dataArrival 0 ⟨5, 8192, true, true, 0, [1]⟩).wellFormed = false := by decide
theorem test_wf_grant_fields :
    (Instr.grantArrival 0 ⟨256, 1, 1, 64⟩).wellFormed = false ∧ (Instr.grantArrival 0 ⟨5, 256, 1, 64⟩).wellFormed = false
      ∧ (Instr.grantArrival 0 ⟨5, 1, 256, 64⟩).wellFormed = false
      ∧ (Instr.grantArrival 0 ⟨5, 1, 1, 4294967296⟩).wellFormed = false := by decide
theorem test_wf_stream_byte :
    (Instr.withdrawArrival 0 256).wellFormed = false ∧ (Instr.cutArrival 0 256).wellFormed = false
      ∧ (Instr.streamClose 0 256).wellFormed = false ∧ (Instr.streamQuery 0 256 0).wellFormed = false := by decide
theorem test_wf_hello_fields :
    (Instr.helloArrival ⟨256, 0, 0, 16, 0⟩).wellFormed = false ∧ (Instr.helloArrival ⟨1, 256, 0, 16, 0⟩).wellFormed = false
      ∧ (Instr.helloArrival ⟨1, 0, 256, 16, 0⟩).wellFormed = false
      ∧ (Instr.helloArrival ⟨1, 0, 0, 65536, 0⟩).wellFormed = false := by decide
theorem test_wf_record_length : (Instr.ringReadEnd .command (.data [1, 2])).wellFormed = false := by decide
theorem test_wf_head_fields :
    (Instr.sendHeadRecord 0 ⟨256, 1, 0, 0, 1, 0, 1⟩).wellFormed = false
      ∧ (Instr.sendHeadRecord 0 ⟨5, 256, 0, 0, 1, 0, 1⟩).wellFormed = false
      ∧ (Instr.sendHeadRecord 0 ⟨5, 1, 0, 0, 4294967296, 0, 1⟩).wellFormed = false
      ∧ (Instr.sendHeadRecord 0 ⟨5, 1, 0, 0, 1, 0, 4294967296⟩).wellFormed = false := by decide
theorem test_wf_fragment_length : (Instr.sendFragmentRecord 0 (.fragment 0 4294967296)).wellFormed = false := by decide
theorem test_wf_other_kind :
    (Instr.sendFragmentRecord 0 (.other 1)).wellFormed = false ∧ (Instr.sendFragmentRecord 0 (.other 2)).wellFormed = false
      ∧ (Instr.sendFragmentRecord 0 (.other 256)).wellFormed = false := by decide
theorem test_wf_stray_head : (Instr.strayRecord 0 (.head ⟨5, 1, 0, 0, 1, 0, 1⟩)).wellFormed = false := by decide
theorem test_wf_landing_length : (Instr.landingRecord 0 0 4294967296).wellFormed = false := by decide
theorem test_wf_link_start :
    (Instr.linkStart 0 256 16).wellFormed = false ∧ (Instr.linkStart 0 0 65536).wellFormed = false := by decide
theorem test_wf_stream_open :
    (Instr.streamOpen 0 256 0 0 1 1 64).wellFormed = false ∧ (Instr.streamOpen 0 5 256 0 1 1 64).wellFormed = false
      ∧ (Instr.streamOpen 0 5 0 256 1 1 64).wellFormed = false ∧ (Instr.streamOpen 0 5 0 0 256 1 64).wellFormed = false
      ∧ (Instr.streamOpen 0 5 0 0 1 256 64).wellFormed = false
      ∧ (Instr.streamOpen 0 5 0 0 1 1 4294967296).wellFormed = false := by decide
theorem test_wf_set_timers :
    (Instr.setTimers 0 256 1 20 50 1 1).wellFormed = false ∧ (Instr.setTimers 0 1 256 20 50 1 1).wellFormed = false
      ∧ (Instr.setTimers 0 1 1 65536 50 1 1).wellFormed = false ∧ (Instr.setTimers 0 1 1 20 65536 1 1).wellFormed = false
      ∧ (Instr.setTimers 0 1 1 20 50 65536 1).wellFormed = false
      ∧ (Instr.setTimers 0 1 1 20 50 1 65536).wellFormed = false := by decide
theorem test_wf_unknown_code :
    (Instr.unknownCommand 0 1).wellFormed = false ∧ (Instr.unknownCommand 0 7).wellFormed = false
      ∧ (Instr.unknownCommand 0 256).wellFormed = false := by decide
theorem test_wf_accepts :
    (Instr.controlEnable 1).wellFormed = true ∧ (Instr.registerWriteOther 0x18 5).wellFormed = true
      ∧ (Instr.unknownCommand 0 8).wellFormed = true ∧ (Instr.dataArrival 0 ⟨255, 8191, true, true, 0, [1]⟩).wellFormed = true
      ∧ (Instr.completionReturn 0x00010030).wellFormed = true := by decide

/-! ## Layouts, from the tables of Record and Parcel Formats -/

/-- The check word of the nine ASCII digits 1 to 9 under this generator, start value and inversion is CBF43926h. -/
theorem test_check_word : checkWord [0x31, 0x32, 0x33, 0x34, 0x35, 0x36, 0x37, 0x38, 0x39] = 0xCBF43926#32 := by decide

/-- A VOID numbered ABCh: kind 05h, a reserved byte, the number, and the check word. -/
theorem test_void_body : parcelBody (.void 0xABC) = [0x05, 0x00, 0xBC, 0x0A] := by decide

/-- A DATA parcel's twelve header bytes and its payload. -/
theorem test_data_body :
    parcelBody (.data 0x123 ⟨5, 0x1234, true, true, 0xBEEF, [0xAA, 0xBB]⟩) =
      [0x01, 0x05, 0x23, 0x01, 0x34, 0x12, 0x03, 0x00, 0x02, 0x00, 0xEF, 0xBE, 0xAA, 0xBB] := by decide

/-- A GRANT's twelve bytes before the check word. -/
theorem test_grant_body :
    parcelBody (.grant 1 ⟨5, 16, 8, 0x10000⟩) =
      [0x02, 0x05, 0x01, 0x00, 0x10, 0x08, 0x00, 0x00, 0x00, 0x00, 0x01, 0x00] := by decide

theorem test_withdraw_and_cut_bodies :
    parcelBody (.withdraw 2 63) = [0x03, 0x3F, 0x02, 0x00, 0, 0, 0, 0]
      ∧ parcelBody (.cut 3 0) = [0x04, 0x00, 0x03, 0x00, 0, 0, 0, 0] := by decide

theorem test_note_bodies :
    parcelBody (.ack 0xFFF) = [0x11, 0, 0xFF, 0x0F] ∧ parcelBody (.retry 5) = [0x12, 0, 5, 0] := by decide

theorem test_hello_body :
    parcelBody (.hello ⟨1, 2, 3, 256, 0x11223344⟩) = [0x13, 1, 2, 3, 0x00, 0x01, 0, 0, 0x44, 0x33, 0x22, 0x11] := by decide

/-- The reserved upper bits of a received number, index and flag byte are not read (R194). -/
theorem test_reserved_bits_not_read :
    readBody 128 [0x01, 0x05, 0x23, 0xF1, 0x34, 0xF2, 0xFF, 0x77, 0x02, 0x00, 0xEF, 0xBE, 0xAA, 0xBB] =
      some (.data 0x123 ⟨5, 0x1234, true, true, 0xBEEF, [0xAA, 0xBB]⟩) := by decide

/-- A length that does not agree with the kind, an unknown kind and a payload length of 0 are bad parcels (R29). -/
theorem test_bad_bodies :
    readBody 128 [0x05, 0, 0, 0, 0] = none ∧ readBody 128 [0x06, 0, 0, 0] = none
      ∧ readBody 128 [0x01, 5, 0, 0, 0, 0, 3, 0, 0, 0, 0, 0] = none
      ∧ readBody 1 [0x01, 5, 0, 0, 0, 0, 3, 0, 2, 0, 0, 0, 7, 7] = none := by decide

/-- A parcel whose check word is off by one bit is bad. -/
theorem test_bad_check_word :
    readParcel 128 (parcelBytes (.void 7)) = some (.void 7)
      ∧ readParcel 128 ((parcelBytes (.void 7)).modify 4 fun b => b ^^^ 1) = none := by decide

/-- A send HEAD record, custody byte last. -/
def headRecord : List Byte :=
  [0x01, 0x05, 0x03, 0x00, 0xEF, 0xBE, 0x00, 0x00, 0x44, 0x33, 0x22, 0x11, 0x28, 0x0A, 0x00, 0x00,
    0x00, 0x10, 0, 0, 0, 0, 0, 0, 0xE8, 0x03, 0x00, 0x00, 0, 0, 0, 0xA5]

theorem test_head_record :
    readSendRecord headRecord = .head ⟨5, 3, 0xBEEF, 0x11223344, 2600, 0x1000, 1000⟩ ∧ recordIsPart headRecord = true := by
  decide

theorem test_fragment_record :
    readSendRecord [0x02, 9, 9, 9, 9, 9, 9, 9, 0x00, 0x20, 0, 0, 0, 0, 0, 0, 0xB0, 0x04, 0, 0] =
      .fragment 0x2000 1200 := by decide

theorem test_landing_record :
    readLandingRecord [0x40, 0x30, 0, 0, 0, 0, 0, 0, 0x00, 0x01, 0, 0] = (0x3040, 256) := by decide

theorem test_stream_open_record :
    readCommand [0x03, 0, 0, 0, 7, 0, 0, 0, 5, 1, 2, 16, 4, 0xFF, 0xFF, 0xFF, 0x00, 0x00, 0x01, 0x00] =
        .streamOpen 5 1 2 16 4 65536
      ∧ readTag [0x03, 0, 0, 0, 7, 1, 0, 0] = 0x107 := by decide

theorem test_link_start_record :
    readCommand [0x01, 0, 0, 0, 7, 0, 0, 0, 3, 0xFF, 0x40, 0x00] = .linkStart 3 64 := by decide

theorem test_set_timers_record :
    readCommand [0x07, 0, 0, 0, 7, 0, 0, 0, 8, 9, 0xF4, 0x01, 0xE8, 0x03, 0x0A, 0x00, 0x64, 0x00] =
      .setTimers 8 9 500 1000 10 100 := by decide

theorem test_query_records :
    readCommand [0x05, 0, 0, 0, 0, 0, 0, 0, 5, 0, 0, 0, 0, 0, 0, 0, 0x40, 0, 0, 0, 0, 0, 0, 0] = .streamQuery 5 0x40
      ∧ readCommand [0x06, 0, 0, 0, 0, 0, 0, 0, 3, 0, 0, 0, 0, 0, 0, 0, 0x80, 0, 0, 0, 0, 0, 0, 0] = .linkQuery true 0x80
      ∧ readCommand [0x08] = .unknown 8 := by decide

/-- A SEND completion under serial 0102h. -/
theorem test_send_completion :
    (Record.send 1 7 0x11223344 .cancelled 2600).bytes 0x0102 =
      [0x01, 0x01, 0x01, 0x00, 0x07, 0x00, 0x00, 0x00, 0x44, 0x33, 0x22, 0x11, 0x28, 0x0A, 0x00, 0x00,
        0, 0, 0, 0, 0, 0, 0, 0, 0, 0, 0, 0, 0, 0, 0x02, 0x01] := by decide

theorem test_message_completion :
    (Record.message 3 ⟨5, 10, 13, 1300, 0xBEEF, .ok⟩).bytes 1 =
      [0x02, 0x00, 0x05, 0x03, 0x0A, 0x00, 0x0D, 0x00, 0x14, 0x05, 0x00, 0x00, 0xEF, 0xBE, 0x00, 0x00,
        0, 0, 0, 0, 0, 0, 0, 0, 0, 0, 0, 0, 0, 0, 0x01, 0x00] := by decide

theorem test_other_completions :
    (Record.landing 3 12 300).bytes 0 = padTo 32 [0x03, 0x06, 0x00, 0x03, 0x0C, 0x00, 0, 0, 0x2C, 0x01]
      ∧ (Record.command 0x11223344 3 .noSpace).bytes 0 = padTo 32 [0x04, 0x10, 3, 0, 0, 0, 0, 0, 0x44, 0x33, 0x22, 0x11]
      ∧ (Record.linkUp .peerRestart 2 1024 32 0x0A0B0C0D).bytes 0 =
          padTo 32 [0x10, 0, 3, 2, 0x00, 0x04, 0x20, 0, 0x0D, 0x0C, 0x0B, 0x0A]
      ∧ (Record.linkDown .stopped 1 0 0 0).bytes 0 = padTo 32 [0x11, 0, 4, 1]
      ∧ (Record.linkProtocolError .streamInvalid 3).bytes 0 = padTo 32 [0x12, 0, 9, 3]
      ∧ (Record.streamOffered 5 .opened 65536).bytes 0 = padTo 32 [0x20, 0, 5, 3, 0, 0, 0, 0, 0, 0, 1, 0]
      ∧ (Record.streamEnded 63 .closed).bytes 0 = padTo 32 [0x21, 0, 63, 0]
      ∧ (Record.streamProtocolError 5 .dataExcess 2).bytes 0 = padTo 32 [0x22, 0, 5, 5, 2]
      ∧ (Record.landingEmpty 7).bytes 0 = padTo 32 [0x30, 0, 0, 7] := by decide

/-- A configuration block: fourteen rings of four records at 1000h, weights 1, 2, 3, a burst limit of 0, a threshold
of 1, a holdoff of 0102h and the label 11223344h. -/
def block : List Byte :=
  (List.replicate 14 [0x00, 0x10, 0, 0, 0, 0, 0, 0, 4, 0, 9, 9, 9, 9, 9, 9]).flatten
    ++ [1, 2, 3, 0, 1, 9, 0x02, 0x01, 0x44, 0x33, 0x22, 0x11] ++ List.replicate 20 9

theorem test_config_block :
    block.length = 256 ∧ (readConfig block).valid = true
      ∧ (readConfig block).landing.get 7 = ⟨0x1000, 4⟩ ∧ (readConfig block).completion = ⟨0x1000, 4⟩
      ∧ ((readConfig block).weight1, (readConfig block).weight2, (readConfig block).weight3) = (1, 2, 3)
      ∧ (readConfig block).burstLimit = 8 ∧ (readConfig block).threshold = 1 ∧ (readConfig block).holdoff = 0x0102
      ∧ (readConfig block).nodeLabel = 0x11223344 := by decide

/-- The same block with a base that is no multiple of 32 fails the check. -/
theorem test_config_block_refused : (readConfig (block.set 0 0x10)).valid = false := by decide

theorem test_register_values :
    readRegister run.toPart 0x00 = 0x5B106401#32 ∧ readRegister run.toPart 0x04 = 1#32
      ∧ readRegister run.toPart 0x08 = 2#32 ∧ readRegister run.toPart 0x10 = 7#32
      ∧ readRegister (run.enterFault .custodyWrite) 0x08 = 0x403#32 := by decide

/-- A LINK_QUERY snapshot has 64 bytes, with the state, the payload size and W where the table puts them. -/
theorem test_link_snapshot :
    up.linkSnapshot.length = 64 ∧ up.linkSnapshot.take 12 = [3, 1, 1, 0, 0, 0, 0, 0, 0x80, 0x00, 0x10, 0x00]
      ∧ fieldAt up.linkSnapshot 0x12 2 = 512 ∧ fieldAt up.linkSnapshot 0x18 2 = 7 := by decide

/-- A STREAM_QUERY snapshot has 64 bytes. -/
theorem test_stream_snapshot :
    let e : StreamEntry :=
      { state := .opened, sendRing := 1, landingRing := 2, maxInbound := 65536, allotment := 16, returnBatch := 4
        credits := 8, peerAllotment := 9, peerMaxMessage := 4096, offeredFlag := true, protocolCause := .creditExcess
        protocolCount := 2, occupancy := 3, pendingReturns := 1, sendLine := [8] }
    let b := (s5 up e).streamSnapshot 5
    b.length = 64
      ∧ b.take 0x20 = [5, 3, 1, 2, 0, 0, 1, 0, 9, 0, 0, 0, 0, 0x10, 0, 0, 0, 0, 0, 0, 0x10, 3, 2, 0, 16, 4, 3, 1, 0, 8, 0, 1]
      := by decide

/-! ## Single steps, from the worked examples -/

/-- The state a command answers. -/
def after (c : Instr) (s : State) : State :=
  match exec c s with
  | .next t => t
  | _ => s

/-- A command ring whose record read is in flight. -/
def reading (s : State) : State := acc s (.ringRead .command) 32

/-- Bringing up two parts: A takes LINK_START with the signal present. -/
theorem test_link_start :
    let t := after (.linkStart 1 3 64) (reading { run with lk := { signalPresent := true } })
    (t.lk.state, t.lk.localEpoch, t.lk.peerEpoch, t.lk.helloDue) = (.hello, 1, 0, .periodic) := by decide

/-- A in HELLO records a HELLO with seen 0, and goes UP on one that has seen its epoch. -/
theorem test_hello_arrivals :
    let a : State := { run with lk := { state := .hello, localEpoch := 1, offeredCode := 3, offeredWindow := 64 } }
    let t := after (.helloArrival ⟨1, 0, 3, 32, 0⟩) a
    let u := after (.helloArrival ⟨1, 1, 3, 32, 0⟩) t
    (t.lk.state, t.lk.peerEpoch, t.lk.helloDue) = (.hello, 1, .answer)
      ∧ (u.lk.state, u.lk.payloadSize, u.lk.window, u.lk.eventFlag) = (.up, 1024, 32, true) := by decide

/-- Opening stream 5: LOCAL_OPEN, a reserved total of 16 and a GRANT of 16 queued. -/
theorem test_stream_open :
    let t := after (.streamOpen 1 5 1 0 16 4 65536) (reading up)
    (t.stream 5).state = .localOpen ∧ t.ib.reservedTotal = 16 ∧ t.control = [.grant 5 16 16 65536] := by decide

/-- B's GRANT accepted at A makes the stream OPEN with 8 credits. -/
theorem test_first_grant :
    let t := after (.grantArrival 0 ⟨5, 8, 8, 65536⟩) (s5 up { state := .localOpen, allotment := 16 })
    ((t.stream 5).state, (t.stream 5).peerAllotment, (t.stream 5).credits, (t.stream 5).offeredFlag)
        = (.opened, 8, 8, true)
      ∧ t.sq.expected = 1 := by decide

/-- A three-fragment message in three parcels: the host reads of each. -/
theorem test_gathering_across_fragments :
    let f : List Fragment := [⟨0x10000, 1000⟩, ⟨0x20000, 1200⟩, ⟨0x30000, 400⟩]
    (payloadReads f 0 1024).map (fun r => (r.address, r.length)) = [(0x10000, 1000), (0x20000, 24)]
      ∧ (payloadReads f 1024 1024).map (fun r => (r.address, r.length)) = [(0x20018, 1024)]
      ∧ (payloadReads f 2048 552).map (fun r => (r.address, r.length)) = [(0x20418, 152), (0x30000, 400)] := by decide

/-- An entry of a message on stream 5, held by context 8. -/
def sent (n : Seq) (k : Nat) : ReplayEntry := ⟨n, .data 8 5 k (128 * k) 128 (k == 0) (k == 3) 0⟩

/-- A bad parcel and its RETRY: RETRY(5) removes 4, tells SF once and rewinds to 5. -/
theorem test_retry :
    let s := ctx (s5 (sqOf up fun q => { q with
        next := 8, replay := [sent 4 0, sent 5 1, sent 6 2, sent 7 3], replayTimer := .running 500, replayCount := 2 })
      { state := .opened, sendLine := [8] }) 8 { state := .sent, stream := 5, parcelCount := 4 }
    let t := after (.retryArrival 5) s
    t.sq.replay = [sent 5 1, sent 6 2, sent 7 3] ∧ t.sq.rewind = some 5 ∧ t.sq.replayCount = 0
      ∧ (t.context 8).acknowledged = 1 ∧ t.lk.counters.retriesReceived = 1 := by decide

/-- A gap between numbers: number 6 with 5 expected notes one RETRY, and a second finds it called for. -/
theorem test_ahead :
    let s := sqOf up fun q => { q with expected := 5 }
    let t := after (.voidArrival 6) s
    (t.sq.note, t.sq.retryPending, t.sq.expected) = (.retry, true, 5)
      ∧ (after (.voidArrival 7) { t with sq := { t.sq with note := .none } }).sq.note = .none := by decide

/-- A simultaneous close: the peer's WITHDRAW in CLOSING is seen, and the WITHDRAW sent lets the stream go. -/
theorem test_simultaneous_close :
    let b := s5 up { state := .closing, closeWaiting := true }
    let b := { cmd b (.streamClose 5) .acting with control := [.withdraw 5] }
    let t := after (.withdrawArrival 0 5) b
    let u := after .sendControlParcel t
    ((t.stream 5).state, (t.stream 5).peerWithdrawSeen) = (.closing, true)
      ∧ (u.stream 5).state = .closed ∧ u.lk.transmission = some (.withdraw 0 5)
      ∧ u.cm.command = none := by decide

/-- A signal lost in UP with the framer free: the teardown is applied at once. -/
theorem test_teardown_at_once :
    let t := after .signalLost (lkOf up fun l => { l with payloadSize := 128 })
    (t.lk.state, t.lk.teardown, t.lk.latestCause, t.lk.eventFlag) = (.awaitSignal, none, .signalLost, true)
      ∧ (after .signalLost (lkOf up fun l => { l with transmission := some (.void 0) })).lk.state = .up := by decide

/-- In HELLO a good DATA is discarded uncounted, whatever its length (R29). -/
theorem test_data_in_hello :
    let s : State := { run with lk := { state := .hello, localEpoch := 1 } }
    after (.dataArrival 0 ⟨5, 0, true, true, 0, [1, 2, 3]⟩) s = s
      ∧ after (.badParcel (parcelBytes (.data 0 ⟨5, 0, true, true, 0, [1, 2, 3]⟩))) s = s := by decide

/-- A read times out, the same ring's next read is in flight, and the late answer changes neither (R188). -/
theorem test_late_answer :
    let s := after (.hostAccessTimeout (.live (.gatherRead 0))) (acc run (.gatherRead 0) 1)
    let t : State := { s with hi := { s.hi with accesses := [⟨.gatherRead 0, 0x2000, 1, []⟩] } }
    s.hi.timedOut = [⟨.gatherRead 0, 0x1000, 1, []⟩]
      ∧ after (.staleAccessEnd (.timedOut 0) (.data [7])) t = { t with hi := { t.hi with timedOut := [] } } := by decide

/-- A READING slot holds its parcel, wanted or dropped, and the snapshot says so (R107, R174). -/
theorem test_dropped_parcel_in_snapshot :
    let s : State := { up with tx := { staging := .reading ⟨0, 5, 0x123, 0, 1, false, true, 0⟩ false [⟨0, 1, none⟩] } }
    (s.streamSnapshot 5)[0x1E]? = some 1 ∧ fieldAt (s.streamSnapshot 5) 0x20 2 = 0x123
      ∧ (s.streamSnapshot 4)[0x1E]? = some 0 := by decide

/-- A message across four buffers: 512 bytes go into records 10 and 11, the rejected record 12 is passed over. -/
theorem test_message_across_buffers :
    let r : LandingRing :=
      { holder := some 5, landing := some ⟨5, [], false, true, List.replicate 512 7, [], 0, .none, none⟩
        cache := [.usable 10 0x1000 256, .usable 11 0x2000 1024, .rejected 12, .usable 13 0x3000 512] }
    let t := (land up r).place 0
    (t.hi.accesses.map fun a => (a.address, a.length)) = [(0x1000, 256), (0x2000, 256)]
      ∧ (t.landRing 0).cache = [.rejected 12, .usable 13 0x3000 512]
      ∧ (t.landRing 0).current = some ⟨11, 0x2000, 1024, 256⟩ := by decide

/-- A landing stall: with batch 4 and three returns pending, the fourth slot freed queues a GRANT of 4. -/
theorem test_return_batch :
    let d : StoredData := ⟨3, false, false, 0, [1]⟩
    let s := q5 (s5 up { state := .opened, allotment := 8, returnBatch := 4, occupancy := 5, pendingReturns := 3,
                         maxInbound := 65536 }) [.data d, .data d]
    (s.takeData 5).control = [.grant 5 8 4 65536] ∧ ((s.takeData 5).stream 5).pendingReturns = 0
      ∧ ((s.takeData 5).stream 5).occupancy = 4 := by decide

/-- The whole ring is returned by two writes: 4095 slots, and then one. -/
theorem test_completion_return :
    let s : State := { run with hi := { run.hi with config := { conf with completion := ⟨0, 4096⟩ } }, cq := { free := 0 } }
    (after (.completionReturn 0x0FFF0030) s).cq.free = 4095
      ∧ (after (.completionReturn 0x00010030) { s with cq := { free := 4095 } }).cq.free = 4096
      ∧ (after (.completionReturn 0x00010030) { s with cq := { free := 4096 } }).hi.event = 2 := by decide

/-- A step takes the front command and leaves the rest. -/
theorem test_step_takes_the_front :
    step { State.reset with pending := [.signalAcquired, .signalLost] } =
      .next { State.reset with lk := { signalPresent := true }, pending := [.signalLost] } := by rfl

/-! ## Witnesses: states that meet the hypotheses of a statement, one for each clause -/

theorem witness_StepRunsTheFrontCommand :
    ({ State.reset with pending := [.signalLost] } : State).pending = .signalLost :: [] ∧ State.reset.pending = [] := by
  decide

theorem witness_FunctionResetEffect :
    (2#32).getLsbD 1 = true ∧ (0#32).getLsbD 1 = false ∧ (0#32).getLsbD 0 = false ∧ run.hi.enable = true
      ∧ run.hi.deviceState = .running := by decide

/-- With a device state, an ENABLE and a CONFIG_LO. -/
def dev (d : DeviceState) (enable : Bool) (lo : BitVec 32) : State :=
  { hi := { deviceState := d, enable := enable, configLo := lo } }

theorem witness_ControlWriteEffect :
    (1#32).getLsbD 1 = false ∧ (1#32).getLsbD 0 = true
      ∧ ((dev .disabled false 256).hi.enable = false ∧ (dev .disabled false 256).hi.deviceState = .disabled
        ∧ ((dev .disabled false 256).hi.configHi ++ (dev .disabled false 256).hi.configLo).toNat % 256 = 0)
      ∧ ((dev .disabled false 255).hi.configHi ++ (dev .disabled false 255).hi.configLo).toNat % 256 ≠ 0
      ∧ (dev .loading false 0).hi.deviceState = .loading ∧ (dev .fault false 0).hi.deviceState = .fault
      ∧ (0#32).getLsbD 0 = false ∧ (dev .loading true 0).hi.enable = true
      ∧ (dev .fault true 0).hi.enable = true ∧ (0#32).getLsbD 0 = (dev .disabled false 0).hi.enable := by decide

/-- With EVENT bits and a mask. -/
def events (e m : BitVec 3) : State := { hi := { event := e, intMask := m } }

theorem witness_EventAndMaskWrites :
    (events 1 6).InterruptHolds ∧ (∀ i, i < 3 → (events 1 7).hi.event.getLsbD i = true → (1#32).getLsbD i = true)
      ∧ ¬(events 4 7).InterruptHolds
      ∧ (∃ i, i < 3 ∧ (events 4 7).hi.event.getLsbD i = true ∧ (3#32).getLsbD i = false) := by
  unfold Part.InterruptHolds; decide

theorem witness_RegisterWindow :
    0x08#12 ∉ [0x04#12, 0x0C#12, 0x10#12, 0x14#12, 0x18#12, 0x1C#12]
      ∧ 0xFFC#12 ∉ [0x04#12, 0x0C#12, 0x10#12, 0x14#12, 0x18#12, 0x1C#12] ∧ 0x1C ≤ (0x1C#12).toNat := by decide

theorem witness_RingNotifyEffect :
    notifySelector 0x00 = .ring .command ∧ notifySelector 0x13 = .ring (.send 3)
      ∧ notifySelector 0x27 = .ring (.landing 7) ∧ State.reset.hi.deviceState ≠ .running
      ∧ (run.hi.deviceState = .running ∧ (run.consumer .command).state = .idle ∧ run.hasRoom .command = true)
      ∧ (cmd run .linkStop .acting).hasRoom .command = false
      ∧ (({ run with rings := { command := { state := .reading } } } : State).consumer .command).state = .reading
      ∧ (({ run with rings := { command := { state := .held } } } : State).consumer .command).state = .held := by decide

theorem witness_CompletionReturnEffect :
    notifySelector 0x00010030 = .completion ∧ 1 ≤ notifyCount 0x00010030
      ∧ run.cq.free + notifyCount 0x00010030 ≤ run.hi.config.completion.length
      ∧ notifyCount 0x00000030 = 0 ∧ run.hi.config.completion.length < run.cq.free + notifyCount 0x00020030 := by decide

theorem witness_NotifySelectors :
    notifySelector 0x01 = .nothing ∧ notifySelector 0x28 = .nothing ∧ notifySelector 0x31 = .nothing
      ∧ notifySelector 0x10 = .ring (.send 0) ∧ (0x10#32).toNat % 256 = (0x0FFF0010#32).toNat % 256 := by decide

/-- A load in progress at an address, abandoned or not. -/
def loading (abandoned enable : Bool) (lo : BitVec 32) : State :=
  { hi := { deviceState := .loading, loadAbandoned := abandoned, enable := enable, configLo := lo
            accesses := [⟨.configRead, 0, 256, []⟩] } }

theorem witness_ConfigReadEndEffect :
    (∀ b e lo, (loading b e lo).access? .configRead = some ⟨.configRead, 0, 256, []⟩)
      ∧ ReadEnd.failed.hasLength 256 = true ∧ (ReadEnd.data block).hasLength 256 = true
      ∧ ((loading true true 256).hi.configHi ++ (loading true true 256).hi.configLo).toNat % 256 = 0
      ∧ ((loading true true 1).hi.configHi ++ (loading true true 1).hi.configLo).toNat % 256 ≠ 0
      ∧ (readConfig block).valid = true ∧ (readConfig (block.set 8 3)).valid = false := by
  refine ⟨fun _ _ _ => rfl, ?_⟩; decide

/-- An access of each kind in flight, and one issued before a function reset. -/
theorem witness_TimeoutsAndStaleAccesses :
    (∀ kind, (acc run kind 32).access? kind = some ⟨kind, 0x1000, 32, []⟩)
      ∧ State.reset.access? .snapshotWrite = none
      ∧ (let s : State := { run with hi := { run.hi with stale := [⟨.configRead, 0, 256, []⟩] } }
         s.hi.stale[0]? = some ⟨.configRead, 0, 256, []⟩ ∧ s.hi.stale[1]? = none) :=
  ⟨fun kind => by simp [acc, Part.access?], by decide, by decide⟩

theorem witness_DeviceFaultEntry :
    (acc run (.ringRead .command) 32).hi.deviceState = .running
      ∧ (acc run (.ringRead .command) 32).access? (.ringRead .command) = some ⟨.ringRead .command, 0x1000, 32, []⟩
      ∧ (acc run (.custodyWrite (.send 0)) 1).access? (.custodyWrite (.send 0)) =
          some ⟨.custodyWrite (.send 0), 0x1000, 1, []⟩
      ∧ (acc run .completionWrite 32).access? .completionWrite = some ⟨.completionWrite, 0x1000, 32, []⟩ := by decide

/-- With a link state, the signal, and what may be pending. -/
def link (st : LinkState) (signal : Bool) (exit : Option Bool) (t : Option Teardown) (tx : Option Parcel) : State :=
  { run with lk := { state := st, signalPresent := signal, helloExit := exit, teardown := t, transmission := tx
                     helloTimer := .running 1000, holdoffTimer := .running 10000, localEpoch := 1, window := 16
                     payloadSize := 128, peerEpoch := 1, peerWindow := 16 } }

theorem witness_SignalAndLinkTimers :
    (link .awaitSignal false none none none).lk.state = .awaitSignal ∧ run.lk.state ≠ .awaitSignal
      ∧ ((link .hello true none none none).lk.state = .hello ∧ (link .hello true none none none).lk.helloExit = none
        ∧ (link .hello true none none none).lk.transmission = none)
      ∧ (link .hello true none none (some (.void 0))).lk.transmission ≠ none
      ∧ (up.lk.state = .up ∧ up.lk.teardown = none ∧ up.lk.transmission = none)
      ∧ (link .up true none none (some (.void 0))).lk.transmission ≠ none
      ∧ (run.lk.state ≠ .hello ∧ run.lk.state ≠ .up)
      ∧ (link .hello true (some true) none none).lk.helloExit ≠ none
      ∧ (link .up true none (some ⟨.stopped, true, none⟩) none).lk.teardown ≠ none
      ∧ (link .hello true none none none).lk.helloTimer = .running 1000
      ∧ ((link .holdoff true none none none).lk.state = .holdoff
        ∧ (link .holdoff true none none none).lk.holdoffTimer = .running 10000
        ∧ (link .holdoff true none none none).lk.signalPresent = true)
      ∧ (link .holdoff false none none none).lk.signalPresent = false := by decide

theorem witness_HelloArrivalEffect :
    ¬HelloInRange ⟨0, 0, 0, 16, 0⟩ ∧ ¬HelloInRange ⟨1, 0, 4, 16, 0⟩ ∧ ¬HelloInRange ⟨1, 0, 0, 15, 0⟩
      ∧ ¬HelloInRange ⟨1, 0, 0, 257, 0⟩
      ∧ (HelloInRange ⟨1, 0, 3, 256, 0⟩ ∧ 0 ≠ (link .hello true none none none).lk.localEpoch)
      ∧ (HelloInRange ⟨1, 1, 0, 16, 0⟩ ∧ 1 = (link .hello true none none none).lk.localEpoch)
      ∧ ((link .up true none none none).lk.teardown = none ∧ (link .up true none none none).lk.peerEpoch = 1
        ∧ (link .up true none none none).lk.peerCode = 0 ∧ (link .up true none none none).lk.peerWindow = 16
        ∧ (link .up true none none none).lk.transmission = none)
      ∧ (link .up true none none (some (.void 0))).lk.transmission ≠ none
      ∧ ((link .holdoff true none none none).lk.state ≠ .hello ∧ (link .holdoff true none none none).lk.state ≠ .up)
      ∧ (link .hello true (some false) none none).lk.helloExit ≠ none
      ∧ (link .up true none (some ⟨.stopped, true, none⟩) none).lk.teardown ≠ none
      ∧ 17 ≠ (link .up true none none none).lk.peerWindow ∧ 2 ≠ (link .up true none none none).lk.peerEpoch := by
  unfold HelloInRange; decide

theorem witness_BadParcelEffect :
    (up.LongestPayload = 128 ∧ readParcel 128 [] = none)
      ∧ ((link .hello true none none none).LongestPayload = 65535 ∧ readParcel 65535 [] = none)
      ∧ readParcel 128 (parcelBytes (.ack 7)) = some (.ack 7) ∧ (up.lk.state = .up ∧ up.lk.teardown = none ∧ up.sq.retryPending = false)
      ∧ (sqOf up fun q => { q with retryPending := true }).sq.retryPending = true
      ∧ ((link .hello true none none none).lk.helloExit = none) ∧ (run.lk.state ≠ .up ∧ run.lk.state ≠ .hello)
      ∧ (link .up true none (some ⟨.stopped, true, none⟩) none).lk.teardown ≠ none
      ∧ (link .hello true (some false) none none).lk.helloExit ≠ none := by decide

/-- With a teardown pending. -/
def tearing (t : Teardown) (signal : Bool) : State := link .up signal none (some t) none

theorem witness_TeardownOfTheLink :
    (tearing ⟨.stopped, true, none⟩ true).lk.teardown = some ⟨.stopped, true, none⟩
      ∧ (tearing ⟨.stopped, true, none⟩ true).lk.transmission = none
      ∧ (cmd (tearing ⟨.stopped, true, none⟩ true) .linkStop .acting).cm.command = some ⟨.linkStop, 9, .acting⟩
      ∧ (Teardown.mk .replayLimit false none).stopRequested = false ∧ (Teardown.mk .signalLost false none).cause ≠ .replayLimit
      ∧ (tearing ⟨.signalLost, false, none⟩ false).lk.signalPresent = false
      ∧ (tearing ⟨.signalLost, false, none⟩ true).lk.signalPresent = true
      ∧ (Teardown.mk .peerRestart false (some ⟨2, 0, 0, 16, 0⟩)).keptHello = some ⟨2, 0, 0, 16, 0⟩ := by decide

theorem witness_TeardownOfTheUnits :
    let s := tearing ⟨.signalLost, false, none⟩ false
    let d : Described := ⟨0, 5, 0, 0, 1, true, true, 0⟩
    (s.lk.teardown = some ⟨.signalLost, false, none⟩ ∧ s.lk.transmission = none)
      ∧ ((s5 s { state := .opened }).stream 5).state = .opened ∧ ((s5 s { state := .winding }).stream 5).state = .winding
      ∧ ({ s with tx := { staging := .reading d true [] } } : State).tx.staging = .reading d true []
      ∧ ({ s with tx := { staging := .ready d [1] } } : State).tx.staging = .ready d [1]
      ∧ (sqOf s fun q => { q with slot := .reading 3 true [] }).sq.slot = .reading 3 true []
      ∧ (sqOf s fun q => { q with slot := .ready 3 [1] }).sq.slot = .ready 3 [1]
      ∧ (let w := ctx { s with sf := { s.sf with fetchOrder := s.sf.fetchOrder.set 0 [7] } } 7 { state := .sent }
         7 ∈ w.sf.fetchOrder.get 0 ∧ (w.context 7).undecided = true ∧ (w.context 0).undecided = false)
      ∧ (let w := land (s5 s { state := .opened, reassembly := { mode := .assembling } }) { holder := some 5 }
         (w.landRing 0).holder = some 5 ∧ (w.stream 5).reassembly.mode = .assembling ∧ (w.landRing 0).landing = none
           ∧ (w.landRing 0).waiting = none)
      ∧ (∀ (writes : List Nat) (kept : Option KeptMessage),
          let l : Landing := ⟨5, [1], true, true, [], writes, 1, .cancelled, kept⟩
          ((land s { holder := some 5, landing := some l }).landRing 0).landing = some l)
      ∧ (let w := land s { holder := some 5, waiting := some ⟨5, 0, 0, 1, 0, .ok⟩ }
         (w.landRing 0).landing = none ∧ (w.landRing 0).waiting ≠ none)
      ∧ (let w := cmd (s5 s { state := .closing }) (.streamClose 5) .acting
         w.cm.command = some ⟨.streamClose 5, 9, .acting⟩ ∧ (w.stream 5).state = .closing) := by
  refine ⟨by decide, by decide, by decide, by decide, by decide, by decide, by decide, by decide, by decide,
    fun _ _ => rfl, by decide, by decide⟩

theorem witness_SequencedNumbers :
    ¬run.Listening ∧ up.Listening ∧ 0 = up.sq.expected
      ∧ (4080#12 ≠ up.sq.expected ∧ (up.sq.expected - 4080#12).toNat ≤ up.lk.window)
      ∧ (up.lk.window < (up.sq.expected - 4079#12).toNat ∧ up.sq.retryPending = false)
      ∧ (sqOf up fun q => { q with retryPending := true }).sq.retryPending = true ∧ ¬(run.Listening ∧ 0 = run.sq.expected)
      ∧ 64 ≤ (GrantParcel.mk 64 1 1 64).stream ∧ (DataParcel.mk 64 0 true true 0 [1]).payload.length ≤ up.lk.payloadSize
      ∧ (DataParcel.mk 5 0 true true 0 []).payload.length = 0
      ∧ up.LongestPayload < (DataParcel.mk 5 0 true true 0 (List.replicate 129 0)).payload.length
      ∧ readParcel up.LongestPayload [] = none
      ∧ (link .hello true none none none).LongestPayload
          < (DataParcel.mk 5 0 true true 0 (List.replicate 65536 0)).payload.length := by
  have long : (link .hello true none none none).LongestPayload < (List.replicate 65536 (0 : Byte)).length := by
    rw [List.length_replicate]; decide
  refine ⟨?_, ?_, ?_, ?_, ?_, ?_, ?_, ?_, ?_, ?_, ?_, ?_, long⟩ <;> first | decide | (unfold Part.Listening; decide)

theorem witness_DataArrivalEffect :
    let d : DataParcel := ⟨5, 0, true, true, 0, List.replicate 128 0⟩
    up.Listening ∧ d.stream = (5 : Fin 64).val ∧ 1 ≤ d.payload.length ∧ d.payload.length ≤ up.lk.payloadSize
      ∧ (let e := (s5 up { state := .opened, allotment := 2, occupancy := 1 }).stream 5
         e.state = .opened ∧ e.occupancy < e.allotment)
      ∧ (let e := (s5 up { state := .opened, allotment := 2, occupancy := 2 }).stream 5
         e.state = .opened ∧ e.allotment ≤ e.occupancy)
      ∧ ((s5 up { state := .closing }).stream 5).state = .closing
      ∧ ((up.stream 5).state ≠ .opened ∧ (up.stream 5).state ≠ .closing) := by
  unfold Part.Listening; decide

theorem witness_GrantArrivalEffect :
    up.Listening ∧ (GrantParcel.mk 5 8 8 64).stream = (5 : Fin 64).val
      ∧ (let e := (s5 up { state := .closing }).stream 5
         e.state = .closing ∧ e.peerWithdrawSeen = false)
      ∧ (up.stream 5).state = .closed ∧ ((s5 up { state := .localOpen }).stream 5).state = .localOpen
      ∧ (let e := (s5 up { state := .offered, peerAllotment := 8, credits := 0 }).stream 5
         e.state = .offered ∧ e.credits + 8 ≤ e.peerAllotment)
      ∧ (let e := (s5 up { state := .opened, peerAllotment := 8, credits := 1 }).stream 5
         e.state = .opened ∧ e.peerAllotment < e.credits + 8)
      ∧ (let e := (s5 up { state := .winding }).stream 5
         e.state = .winding ∧ e.offer = none)
      ∧ (let e := (s5 up { state := .disrupted, offer := some ⟨8, 0, 64⟩ }).stream 5
         e.state = .disrupted ∧ e.offer = some ⟨8, 0, 64⟩ ∧ 0 + 8 ≤ 8 ∧ 8 < 1 + 8) := by
  unfold Part.Listening; decide

/-- GRANTs at and beyond the ends of their ranges. -/
theorem witness_GrantArrivalEffect_ranges :
    ¬GrantInRange ⟨5, 0, 0, 64⟩ ∧ ¬GrantInRange ⟨5, 129, 1, 64⟩ ∧ ¬GrantInRange ⟨5, 8, 9, 64⟩
      ∧ ¬GrantInRange ⟨5, 8, 0, 64⟩ ∧ ¬GrantInRange ⟨5, 8, 8, 63⟩ ∧ ¬GrantInRange ⟨5, 8, 8, 1048577⟩
      ∧ GrantInRange ⟨5, 128, 128, 1048576⟩ ∧ GrantInRange ⟨5, 1, 1, 64⟩ ∧ GrantInRange ⟨5, 8, 8, 64⟩ := by
  simp [GrantInRange]

/-- The entries of `witness_GrantArrivalEffect` that agree with a GRANT of 8, and one that does not. -/
theorem witness_GrantArrivalEffect_agrees :
    let g : GrantParcel := ⟨5, 8, 8, 64⟩
    ¬StreamEntry.Agrees { state := .opened, peerAllotment := 9 } g
      ∧ ¬StreamEntry.Agrees { state := .winding, offer := some ⟨9, 0, 64⟩ } g ∧ StreamEntry.Agrees {} g
      ∧ StreamEntry.Agrees { state := .localOpen } g ∧ StreamEntry.Agrees { state := .offered, peerAllotment := 8 } g
      ∧ StreamEntry.Agrees { state := .opened, peerAllotment := 8, credits := 1 } g
      ∧ StreamEntry.Agrees { state := .winding } g
      ∧ StreamEntry.Agrees { state := .disrupted, offer := some ⟨8, 0, 64⟩ } g := by
  simp [StreamEntry.Agrees]

theorem witness_WithdrawAndCutArrivals :
    up.Listening ∧ ((s5 up { state := .opened }).stream 5).state = .opened ∧ (up.stream 5).state = .closed
      ∧ (let e := (s5 up { state := .winding, offer := some ⟨8, 8, 64⟩ }).stream 5
         e.state = .winding ∧ e.offer = some ⟨8, 8, 64⟩)
      ∧ (let e := (s5 up { state := .closing }).stream 5
         e.state = .closing ∧ e.offer = none ∧ e.peerWithdrawSeen = false)
      ∧ (let e := (s5 up { state := .closing, peerWithdrawSeen := true }).stream 5
         e.peerWithdrawSeen = true ∧ e.offer = none)
      ∧ .cutMarker ∉ (s5 up { state := .opened }).queue 5 ∧ .cutMarker ∈ (q5 up [.cutMarker]).queue 5
      ∧ (∀ x : Staging, ({ up with tx := { staging := x } } : State).tx.staging = x)
      ∧ (∀ d wanted reads, up.tx.staging ≠ .reading d wanted reads) ∧ ∀ d payload, up.tx.staging ≠ .ready d payload := by
  refine ⟨?_, ?_, ?_, ?_, ?_, ?_, ?_, ?_, fun _ => rfl, fun _ _ _ => nofun, fun _ _ => nofun⟩ <;>
    first | decide | (unfold Part.Listening; decide)

theorem witness_StreamExits :
    (let p := s5 up { state := .closing, withdrawSequenced := true, peerWithdrawSeen := true }
     let e := p.stream 5
     e.state = .closing ∧ e.withdrawSequenced = true ∧ e.peerWithdrawSeen = true ∧ e.sendLine = []
       ∧ (p.landRing e.landingRing).holder ≠ some 5 ∧ 5 ∉ (p.landRing e.landingRing).claimQueue)
      ∧ (let p := s5 up { state := .winding, withdrawSequenced := true, markerProcessed := true, closeWaiting := true }
         let e := p.stream 5
         e.state = .winding ∧ e.withdrawSequenced = true ∧ e.markerProcessed = true ∧ e.closeWaiting = true
           ∧ e.sendLine = [])
      ∧ (s5 up { state := .winding, withdrawSequenced := true, markerProcessed := true }).stream 5 =
          { state := .winding, withdrawSequenced := true, markerProcessed := true, closeWaiting := false }
      ∧ ((up.stream 5).state ≠ .closing ∧ (up.stream 5).state ≠ .winding)
      ∧ (cmd up (.streamClose 5) .acting).cm.command = some ⟨.streamClose (5 : Fin 64).val, 9, .acting⟩
      ∧ ∀ tag, (cmd up (.streamClose 4) .acting).cm.command ≠ some ⟨.streamClose (5 : Fin 64).val, tag, .acting⟩ := by
  refine ⟨by decide, by decide, by decide, by decide, by decide, fun tag h => ?_⟩
  have same : Command.streamClose 4 = .streamClose (5 : Fin 64).val := congrArg InProgress.command (Option.some.inj h)
  exact absurd same (by decide)

/-- Numbers 4 to 7 on the list. -/
def listed : State :=
  sqOf up fun q => { q with
    next := 8, replay := [sent 4 0, sent 5 1, sent 6 2, sent 7 3], replayTimer := .running 500 }

theorem witness_AcknowledgementArrivals :
    ¬run.Listening ∧ listed.Listening
      ∧ (¬(9#12 - listed.sq.oldest).toNat ≤ (listed.sq.next - listed.sq.oldest).toNat)
      ∧ ((4#12 - listed.sq.oldest).toNat ≤ (listed.sq.next - listed.sq.oldest).toNat
        ∧ listed.sq.replay.take (4#12 - listed.sq.oldest).toNat = [])
      ∧ ((8#12 - listed.sq.oldest).toNat ≤ (listed.sq.next - listed.sq.oldest).toNat
        ∧ listed.sq.replay.take (8#12 - listed.sq.oldest).toNat ≠ [])
      ∧ 8 = listed.sq.next ∧ (7#12 ≠ listed.sq.next ∧ (7#12 - listed.sq.oldest).toNat ≤ 4) := by
  unfold Part.Listening; decide

theorem witness_SequencingTimers :
    (sqOf up fun q => { q with ackTimer := .running 8 }).sq.ackTimer = .running 8
      ∧ listed.sq.replayTimer = .running 500
      ∧ (sqOf listed fun q => { q with replayCount := 7 }).sq.replayCount + 1 ≤ listed.cm.timers.replayLimit
      ∧ listed.cm.timers.replayLimit < (sqOf listed fun q => { q with replayCount := 8 }).sq.replayCount + 1
      ∧ (listed.Listening ∧ listed.lk.transmission = none)
      ∧ (lkOf listed fun l => { l with transmission := some (.void 0) }).lk.transmission ≠ none
      ∧ ¬(lkOf listed fun l => { l with teardown := some ⟨.stopped, true, none⟩ }).Listening := by
  unfold Part.Listening; decide

/-- At the rewind position, a GRANT, a VOID or LIVE DATA. -/
def replaying (c : Content) (slot : ReplaySlot) : State :=
  sqOf up fun q => { q with next := 5, replay := [⟨4, c⟩], rewind := some 4, slot := slot }

theorem witness_UnnumberedSends :
    up.FramerOpen ∧ (lkOf up fun l => { l with helloDue := .answer }).lk.helloDue ≠ .none ∧ run.FramerOpen
      ∧ (run.lk.state ≠ .hello ∧ run.lk.state ≠ .up) ∧ up.lk.helloDue = .none
      ∧ (sqOf up fun q => { q with note := .ack }).sq.note = .ack ∧ (sqOf up fun q => { q with note := .retry }).sq.note = .retry
      ∧ up.sq.note = .none
      ∧ ((replaying (.cut 5) .empty).FramerOpen ∧ (replaying (.cut 5) .empty).sq.rewind = some 4
        ∧ (replaying (.cut 5) .empty).sq.replay.find? (fun x => decide (x.seq = 4)) = some ⟨4, .cut 5⟩)
      ∧ (replaying (.data 8 5 0 0 1 true true 0) (.ready 4 [1])).sq.slot = .ready 4 [1]
      ∧ (replaying .void (.ready 4 [1])).sq.slot = .ready 4 [1] := by
  unfold Part.FramerOpen; decide

/-- With a control queue. -/
def queued (c : List ControlEntry) : State := { up with control := c }

theorem witness_SendControlEffect :
    (queued [.grant 5 8 8 64]).MaySequence ∧ (queued [.grant 5 8 8 64]).control = .grant 5 8 8 64 :: []
      ∧ (queued [.cut 0]).control = .cut 0 :: [] ∧ (queued [.withdraw 63]).control = .withdraw 63 :: []
      ∧ (queued [.cut 0]).MaySequence ∧ (queued [.withdraw 63]).MaySequence := by
  unfold Part.MaySequence Part.FramerOpen; decide

/-- A described parcel of context `c`. -/
def described (c : Fin 32) : Described := ⟨c, 5, 0, 0, 1, true, true, 0⟩

/-- A staged parcel of context `c`, with its stream's credits. -/
def staged (c : Fin 32) (credits : Nat) : State :=
  let s := s5 up { state := .opened, credits := credits, peerAllotment := 8, sendLine := [c] }
  { ctx s c { state := .ready, stream := 5, totalLength := 1, parcelCount := 1 } with
    tx := { staging := .ready (described c) [1] } }

theorem witness_SendDataEffect :
    ((staged 7 1).MaySequence ∧ (staged 7 1).control = [] ∧ (staged 7 1).tx.staging = .ready (described 7) [1]
        ∧ ((staged 7 1).stream 5).state = .opened ∧ 1 ≤ ((staged 7 1).stream 5).credits
        ∧ ((staged 7 1).context 7).undecided = true ∧ (7 : Fin 32).val < 8
        ∧ ¬∃ r ∈ ([1, 2, 3] : List (Fin 4)), ∃ c ∈ (staged 7 1).sf.fetchOrder.get r, (staged 7 1).Eligible c)
      ∧ ((staged 8 1).MaySequence ∧ 8 ≤ (8 : Fin 32).val)
      ∧ ((staged 7 0).MaySequence ∧ ((staged 7 0).stream 5).credits = 0)
      ∧ ({ staged 7 1 with control := [.cut 5] } : State).control ≠ []
      ∧ ¬(lkOf (staged 7 1) fun l => { l with transmission := some (.void 0) }).FramerOpen
      ∧ (let s := sqOf (staged 7 1) fun q => { q with replay := List.replicate 16 (sent 0 0) }
         s.lk.window ≤ s.sq.replay.length) := by
  have none : ¬∃ r ∈ ([1, 2, 3] : List (Fin 4)), ∃ c ∈ (staged 7 1).sf.fetchOrder.get r, (staged 7 1).Eligible c := by
    rintro ⟨r, hr, c, hc, -⟩
    revert hr c; revert r; decide
  refine ⟨⟨?_, ?_, ?_, ?_, ?_, ?_, ?_, none⟩, ?_, ?_, ?_, ?_, ?_⟩ <;>
    first | decide | (unfold Part.MaySequence Part.FramerOpen; decide) | (unfold Part.FramerOpen; decide)

theorem witness_TransmissionEndEffect :
    let s := fun exit t signal => link .hello signal exit t (some (.ack 0))
    (s none none true).lk.transmission = some (.ack 0) ∧ (s none none true).lk.teardown = none
      ∧ (link .up true none (some ⟨.stopped, true, none⟩) (some (.ack 0))).lk.teardown ≠ none
      ∧ (s (some true) none true).lk.helloExit = some true
      ∧ (cmd (s (some true) none true) .linkStop .acting).cm.command = some ⟨.linkStop, 9, .acting⟩
      ∧ ((s (some false) none true).lk.helloExit = some false ∧ (s (some false) none true).lk.signalPresent = true)
      ∧ (s (some false) none false).lk.signalPresent = false := by decide

/-- One READY context on each listed ring, for streams 1 to 4 in turn. -/
def eligibles (cs : List (Fin 32)) (burst turnCount : Nat) (turn : Fin 4) : State :=
  let base : State := { up with tx := { burst := burst, turnRing := turn, turnCount := turnCount } }
  cs.foldl (fun s c =>
    let i : Fin 64 := ⟨c.val / 8, by omega⟩
    let s : State := { s with streams := s.streams.set i { state := .opened, credits := 1, peerAllotment := 1, sendLine := [c] } }
    { ctx s c { state := .ready, stream := i.val, totalLength := 1, parcelCount := 1, fragments := [⟨0x100, 1⟩] } with
      sf := { s.sf with
        contexts := s.sf.contexts.set c { state := .ready, stream := i.val, totalLength := 1, parcelCount := 1
                                          fragments := [⟨0x100, 1⟩] }
        fetchOrder := s.sf.fetchOrder.set (contextRing c) [c] } }) base

/-- What TX asks of a context, as a test. -/
def pickable (s : State) (c : Fin 32) : Bool :=
  decide ((s.context c).state = .ready) && decide ((s.stream ⟨c.val / 8, by omega⟩).state = .opened)
    && decide ((s.context c).stream = c.val / 8) && decide (1 ≤ (s.stream ⟨c.val / 8, by omega⟩).credits)
    && decide ((s.stream ⟨c.val / 8, by omega⟩).sendLine.find? (fun x => decide ((s.context x).state ≠ .sent)) = some c)

theorem eligible_of_pickable {s : State} {c : Fin 32} (h : pickable s c = true) : s.Eligible c := by
  simp only [pickable, Bool.and_eq_true, decide_eq_true_eq] at h
  obtain ⟨⟨⟨⟨h1, h2⟩, h3⟩, h4⟩, h5⟩ := h
  exact ⟨.inl h1, _, h3, h2, h4, h5⟩

/-- Ring 0 below the limit; ring 0 at the limit with rings to turn to; a turn that is spent; no eligible context. -/
theorem witness_DataPickOrder :
    (let s := eligibles [0, 8] 1 0 1
     s.hi.deviceState = .running ∧ s.lk.state = .up ∧ s.lk.teardown = none ∧ s.tx.staging = .empty
       ∧ s.sf.fetchOrder.get 0 = [] ++ 0 :: [] ∧ s.Eligible 0 ∧ s.tx.burst < s.hi.config.burstLimit)
      ∧ (let s := eligibles [0, 8] 2 1 1
         s.Eligible 0 ∧ s.hi.config.burstLimit ≤ s.tx.burst ∧ s.sf.fetchOrder.get 1 = [] ++ 8 :: [] ∧ s.Eligible 8
           ∧ s.tx.turnRing ∈ ([1, 2, 3] : List (Fin 4)) ∧ s.tx.turnCount < s.hi.config.weight1)
      ∧ (let s := eligibles [8, 16] 0 2 1
         s.hi.config.weight1 ≤ s.tx.turnCount ∧ s.sf.fetchOrder.get 2 = [] ++ 16 :: [] ∧ s.Eligible 16
           ∧ s.sf.fetchOrder.get 0 = [])
      ∧ (let s := eligibles [24] 0 0 1
         s.sf.fetchOrder.get 1 = [] ∧ s.sf.fetchOrder.get 2 = [] ∧ s.sf.fetchOrder.get 3 = [] ++ 24 :: [] ∧ s.Eligible 24)
      ∧ (let s := eligibles [8] 0 2 1
         s.hi.config.weight1 ≤ s.tx.turnCount ∧ s.sf.fetchOrder.get 2 = [] ∧ s.sf.fetchOrder.get 3 = [] ∧ s.Eligible 8)
      ∧ (∀ r : Fin 4, (eligibles [] 0 0 1).sf.fetchOrder.get r = []) := by
  refine ⟨⟨?_, ?_, ?_, ?_, ?_, ?_, ?_⟩, ⟨?_, ?_, ?_, ?_, ?_, ?_⟩, ⟨?_, ?_, ?_, ?_⟩, ⟨?_, ?_, ?_, ?_⟩, ⟨?_, ?_, ?_, ?_⟩, ?_⟩ <;>
    first | exact eligible_of_pickable (by decide) | decide

/-- A gathering with its reads. -/
def gathering (wanted : Bool) (reads : List HostRead) (next : Nat) : State :=
  let s := s5 up { state := .opened, sendLine := [8] }
  { acc (ctx s 8 { state := .sending, stream := 5, nextIndex := next }) (.gatherRead 0) 1 with
    tx := { staging := .reading (described 8) wanted reads } }

theorem witness_PayloadGathering :
    (let p := ctx up 8 { state := .ready, stream := 5, fragments := [⟨0x100, 1⟩], totalLength := 1, parcelCount := 1 }
     (p.context 8).stream = (5 : Fin 64).val)
      ∧ ((gathering true [⟨0, 1, none⟩] 0).hi.deviceState = .running
        ∧ (gathering true [⟨0, 1, none⟩] 0).access? (.gatherRead 0) = some ⟨.gatherRead 0, 0x1000, 1, []⟩
        ∧ (ReadEnd.data [7]).hasLength 1 = true ∧ ReadEnd.failed.hasLength 1 = true
        ∧ (gathering true [⟨0, 1, none⟩] 0).tx.staging = .reading (described 8) true [⟨0, 1, none⟩])
      ∧ (∃ r ∈ ([⟨0, 1, none⟩, ⟨1, 1, none⟩] : List HostRead).modify 0 (fun r => { r with result := some (.data [7]) }),
          r.result = none)
      ∧ (([⟨0, 1, none⟩] : List HostRead).modify 0 (fun r => { r with result := some (.data [7]) })).map HostRead.result =
          [[7]].map (fun b => some (.data b))
      ∧ (∃ r ∈ ([⟨0, 1, none⟩] : List HostRead).modify 0 (fun r => { r with result := some .failed }),
          r.result = some .failed)
      ∧ (((gathering true [] 0).stream 5).state = .opened ∧ .withdraw 5 ∉ (gathering true [] 0).control
        ∧ .cut 5 ∉ (gathering true [] 0).control)
      ∧ (up.stream 5).state ≠ .opened ∧ .withdraw 5 ∈ (queued [.withdraw 5]).control ∧ .cut 5 ∈ (queued [.cut 5]).control := by
  decide

/-- A refetch with its reads. -/
def refetching (wanted : Bool) (reads : List HostRead) : State :=
  acc (sqOf up fun q => { q with
    next := 5, replay := [⟨4, .data 8 5 0 0 1 true true 0⟩], rewind := some 4, slot := .reading 4 wanted reads })
    (.refetchRead 0) 1

theorem witness_RefetchEffect :
    (let s := replaying (.data 8 5 0 0 1 true true 0) .empty
     s.hi.deviceState = .running ∧ s.lk.teardown = none ∧ s.sq.slot = .empty ∧ s.sq.rewind = some 4
       ∧ s.sq.replay.find? (fun x => decide (x.seq = 4)) = some ⟨4, .data 8 5 0 0 1 true true 0⟩)
      ∧ up.sq.rewind = none ∧ (refetching true []).sq.slot ≠ .empty
      ∧ (let s := refetching true [⟨0, 1, none⟩]
         s.access? (.refetchRead 0) = some ⟨.refetchRead 0, 0x1000, 1, []⟩ ∧ s.sq.slot = .reading 4 true [⟨0, 1, none⟩]
           ∧ s.sq.replay.find? (fun x => decide (x.seq = 4)) = some ⟨4, .data 8 5 0 0 1 true true 0⟩)
      ∧ (∀ r ∈ ([⟨0, 1, none⟩] : List HostRead).modify 0 (fun r => { r with result := some .failed }), r.result ≠ none)
      ∧ (refetching false [⟨0, 1, none⟩]).sq.slot = .reading 4 false [⟨0, 1, none⟩]
      ∧ ((replaying (.data 8 5 0 0 1 true true 0) (.ready 4 [1])).sq.slot = .ready 4 [1]
        ∧ ∃ x ∈ (replaying (.data 8 5 0 0 1 true true 0) (.ready 4 [1])).sq.replay,
            (∃ j k o n f l m, x.content = .data 8 j k o n f l m) ∧ x.seq = 4) := by
  refine ⟨by decide, by decide, by decide, by decide, by decide, by decide, rfl, _, List.mem_singleton_self _,
    ⟨_, _, _, _, _, _, _, rfl⟩, rfl⟩

theorem witness_RingReadEndEffect :
    run.hi.deviceState = .running ∧ (reading run).access? (.ringRead .command) = some ⟨.ringRead .command, 0x1000, 32, []⟩
      ∧ headRecord.length = 32 ∧ fieldAt headRecord 0x1F 1 = 0xA5 ∧ fieldAt (headRecord.set 31 0) 0x1F 1 ≠ 0xA5
      ∧ (({ reading run with rings := { command := { state := .reading, renotify := true } } } : State).consumer
          .command).renotify = true
      ∧ ((reading run).consumer .command).renotify = false := by decide

theorem witness_CustodyAndHeldRings :
    (acc run (.custodyWrite .command) 1).access? (.custodyWrite .command) = some ⟨.custodyWrite .command, 0x1000, 1, []⟩
      ∧ run.hasRoom .command = true ∧ (cmd run .linkStop .acting).hasRoom .command = false
      ∧ (({ run with rings := { command := { state := .held } } } : State).consumer .command).state = .held
      ∧ (run.consumer .command).state ≠ .held := by decide

/-- A send ring whose record read is in flight. -/
def sendReading (s : State) : State := acc s (.ringRead (.send 1)) 32

theorem witness_SendRecordsTaken :
    ((sendReading run).access? (.ringRead (.send 1)) = some ⟨.ringRead (.send 1), 0x1000, 32, []⟩
        ∧ fieldAt headRecord 0x1F 1 = 0xA5 ∧ headRecord.length = 32
        ∧ readSendRecord headRecord = .head ⟨5, 3, 0xBEEF, 0x11223344, 2600, 0x1000, 1000⟩)
      ∧ (acc run (.ringRead (.landing 7)) 32).access? (.ringRead (.landing 7)) ≠ none
      ∧ (let s := ctx (sendReading up) 8 { state := .sent }
         s.hi.deviceState = .running ∧ s.filling? 1 = none ∧ (9 : Fin 32).val / 8 = (1 : Fin 4).val
           ∧ (s.context 9).state = .free
           ∧ ∀ c : Fin 32, c.val / 8 = (1 : Fin 4).val → c < 9 → (s.context c).state ≠ .free)
      ∧ (SendRecord.other 9).notHead = true ∧ (SendRecord.fragment 0 1).notHead = true
      ∧ (let s := ctx (sendReading up) 15 { state := .filling, fragmentCount := 3, fragments := [⟨0, 1⟩, ⟨1, 1⟩] }
         s.filling? 1 = some 15 ∧ (s.context 15).fragments.length + 1 = (s.context 15).fragmentCount)
      ∧ (let s := ctx (sendReading up) 15 { state := .filling, fragmentCount := 3, fragments := [⟨0, 1⟩] }
         s.filling? 1 = some 15 ∧ (s.context 15).fragments.length + 1 ≠ (s.context 15).fragmentCount) := by decide

/-- A context of ring 1 to be validated, for stream 5 bound to a ring. -/
def validating (x : Context) (e : StreamEntry) : State := ctx (s5 up e) 8 x

theorem witness_ContextValidation :
    let x : Context := { state := .filling, stream := 5, fragmentCount := 1, fragments := [⟨0x100, 130⟩], totalLength := 130 }
    let e : StreamEntry := { state := .opened, sendRing := 1, peerMaxMessage := 130 }
    let countOk := fun x : Context => 1 ≤ x.fragmentCount ∧ x.fragmentCount ≤ 16 ∧ ∀ f ∈ x.fragments, 1 ≤ f.length
    let sum := fun x : Context => (x.fragments.map Fragment.length).sum
    (¬countOk { x with fragmentCount := 0 }) ∧ (¬countOk { x with fragmentCount := 17 })
      ∧ (¬countOk { x with fragments := [⟨0x100, 0⟩] })
      ∧ (countOk x ∧ ¬sum x = 131) ∧ (sum x = x.totalLength ∧ 64 ≤ 64)
      ∧ ((validating x e).context 8).stream = (5 : Fin 64).val
      ∧ ((validating x { e with state := .offered }).stream 5).state ≠ .opened
      ∧ ((validating x { e with sendRing := 0 }).stream 5).sendRing.val ≠ (8 : Fin 32).val / 8
      ∧ ((validating x { e with peerMaxMessage := 129 }).stream 5).peerMaxMessage < x.totalLength
      ∧ (((validating x e).stream 5).state = .opened ∧ ((validating x e).stream 5).sendRing.val = (8 : Fin 32).val / 8
        ∧ x.totalLength ≤ ((validating x e).stream 5).peerMaxMessage ∧ 1 ≤ (validating x e).lk.payloadSize) := by decide

/-- Landing ring 0 with a record read in flight. -/
def landReading (r : LandingRing) : State := acc (land up r) (.ringRead (.landing 0)) 32

theorem witness_LandingRecordEffect :
    (landReading {}).ReadInFlight (.landing 0)
      ∧ (256 ≤ 256 ∧ 256 ≤ 65536 ∧ 256 % 64 = 0) ∧ (256 ≤ 65536 ∧ 65536 % 64 = 0)
      ∧ (¬(256 ≤ 192)) ∧ (¬(65600 ≤ 65536)) ∧ (¬300 % 64 = 0)
      ∧ ((landReading {}).landRing 0).landing = none
      ∧ ∃ l, ((landReading { landing := some ⟨5, [], true, true, [1], [], 0, .none, none⟩ }).landRing 0).landing = some l
          ∧ l.unplaced ≠ [] := by
  refine ⟨⟨by decide, _, rfl⟩, by decide, by decide, by decide, by decide, by decide, by decide, _, rfl, by decide⟩

theorem witness_CompletionsTaken :
    (cmd run .linkStop (.offered .ok)).cm.command = some ⟨.linkStop, 9, .offered .ok⟩ ∧ run.MayWrite ∧ run.cq.list = []
      ∧ run.anyFlag = false ∧ (lkOf run fun l => { l with eventFlag := true }).anyFlag = true
      ∧ (let s := ctx { run with sf := { run.sf with line := [8] } } 8 { state := .completing, outcome := some .ok }
         s.sf.line = 8 :: [] ∧ (s.context 8).outcome = some .ok)
      ∧ ({ run with dl := { run.dl with line := [.rejected 0 12 300] } } : State).dl.line = .rejected 0 12 300 :: []
      ∧ (let m : MessageCompletion := ⟨5, 0, 0, 1, 0, .ok⟩
         ({ run with dl := { run.dl with line := [.message 0 m] } } : State).dl.line = .message 0 m :: [])
      ∧ (land run { holder := some 5, waiting := some ⟨5, 0, 0, 1, 0, .ok⟩ }).landRing 0 =
          { holder := some 5, waiting := some ⟨5, 0, 0, 1, 0, .ok⟩ }
      ∧ ((land run { waiting := some ⟨5, 0, 0, 1, 0, .linkLost⟩ }).landRing 0).holder ≠ some 5 := by
  unfold Part.MayWrite; decide

theorem witness_OffersAreTaken :
    run.hi.deviceState = .running ∧ State.reset.hi.deviceState ≠ .running
      ∧ ((run.MayWrite ∧ run.cq.list = [] ∧ run.anyFlag = false) ∧ run.cq.list.length < 32)
      ∧ (let s := cmd run .linkStop (.offered .ok)
         s.offer? .cm ≠ none ∧ ∀ v, s.offer? v ≠ none → v = .cm)
      ∧ (let s := { cmd run .linkStop (.offered .ok) with dl := { run.dl with line := [.rejected 0 12 300] } }
         s.offer? .cm ≠ none ∧ s.offer? .dl ≠ none)
      ∧ (let s : State := { run with cq := { run.cq with list := List.replicate 32 (.landingEmpty 0) } }
         s.cq.list ≠ [] ∧ ¬s.cq.list.length < 32) := by
  unfold Part.MayWrite
  refine ⟨by decide, by decide, by decide, ⟨by decide, ?_⟩, by decide, by decide⟩
  intro v; cases v <;> decide

theorem witness_PostingOrder :
    ¬({ run with cq := { free := 0 } } : State).MayWrite ∧ run.MayWrite
      ∧ (lkOf run fun l => { l with eventFlag := true }).lk.eventFlag = true
      ∧ (lkOf run fun l => { l with protocolFlag := true }).lk.protocolFlag = true ∧ run.lk.protocolFlag = false
      ∧ (let s := s5 run { endedFlag := true, offeredFlag := true }
         (s.stream 5).anyFlag = true ∧ (∀ j, j < 5 → (s.stream j).anyFlag = false) ∧ (s.stream 5).endedFlag = true)
      ∧ ((s5 run { offeredFlag := true }).stream 5).endedFlag = false
      ∧ ((s5 run { protocolFlag := true }).stream 5).anyFlag = true
      ∧ ((s5 run { protocolFlag := true }).stream 5).offeredFlag = false
      ∧ (∀ i : Fin 64, (run.stream i).anyFlag = false) ∧ ((land run { emptyFlag := true }).landRing 0).emptyFlag = true
      ∧ (∀ r : Fin 8, (run.landRing r).emptyFlag = false)
      ∧ ({ run with cq := { free := 1, list := [.landingEmpty 0] } } : State).cq.list = .landingEmpty 0 :: []
      ∧ run.cq.list = [] ∧ (cmd run .linkStop (.offered .ok)).offer? .cm ≠ none ∧ (∀ w, ¬run.offer? w ≠ none) := by
  unfold Part.MayWrite
  refine ⟨by decide, by decide, by decide, by decide, by decide, by decide, by decide, by decide, by decide, by decide,
    by decide, by decide, by decide, by decide, by decide, ?_⟩
  intro w; cases w <;> decide

theorem witness_InterruptModeration :
    let s := fun n h t => ({ acc run .completionWrite 32 with
      hi := { (acc run .completionWrite 32).hi with config := { conf with holdoff := h, threshold := t } }
      cq := { free := 7, unannounced := n, holdoffTimer := .running 5 } } : State)
    (s 1 5 2).access? .completionWrite = some ⟨.completionWrite, 0x1000, 32, []⟩
      ∧ (s 1 5 2).hi.config.threshold ≤ (s 1 5 2).cq.unannounced + 1
      ∧ ((s 0 0 2).cq.unannounced + 1 = 1 ∧ (s 0 0 2).hi.config.holdoff = 0)
      ∧ ((s 0 5 2).cq.unannounced + 1 < (s 0 5 2).hi.config.threshold ∧ (s 0 5 2).hi.config.holdoff ≠ 0)
      ∧ ((s 1 5 3).cq.unannounced + 1 < (s 1 5 3).hi.config.threshold ∧ (s 1 5 3).cq.unannounced + 1 ≠ 1)
      ∧ (s 1 5 2).cq.holdoffTimer = .running 5 := by decide

theorem witness_LinkCommands :
    (reading run).ReadInFlight .command ∧ up.lk.state ≠ .offline
      ∧ (run.lk.state = .offline ∧ ¬(4 ≤ 3 ∧ 16 ≤ 16 ∧ 16 ≤ 256)) ∧ (3 ≤ 3 ∧ 16 ≤ 256 ∧ 256 ≤ 256)
      ∧ (lkOf run fun l => { l with signalPresent := true }).lk.signalPresent = true ∧ run.lk.signalPresent = false
      ∧ (link .awaitSignal false none none none).lk.state = .awaitSignal
      ∧ (link .holdoff true none none none).lk.state = .holdoff
      ∧ ((link .hello true none none none).lk.state = .hello ∧ (link .hello true none none none).lk.transmission = none)
      ∧ (link .hello true none none (some (.ack 0))).lk.transmission ≠ none ∧ (up.lk.state = .up ∧ up.lk.teardown = none)
      ∧ up.lk.transmission = none ∧ (link .up true none none (some (.ack 0))).lk.transmission ≠ none
      ∧ (tearing ⟨.signalLost, false, none⟩ true).lk.teardown = some ⟨.signalLost, false, none⟩ := by
  refine ⟨⟨by decide, _, rfl⟩, ?_⟩; decide

theorem witness_StreamOpenEffect :
    (reading up).ReadInFlight .command ∧ ¬(run.lk.state = .up ∧ run.lk.teardown = none)
      ∧ (up.lk.state = .up ∧ up.lk.teardown = none)
      ∧ (¬(64 ≤ 63)) ∧ (¬(129 ≤ 128)) ∧ (¬(1 ≤ 0)) ∧ (¬(3 ≤ 2)) ∧ (¬(64 ≤ 63))
      ∧ (63 = (63 : Fin 64).val ∧ 3 = (3 : Fin 4).val ∧ 7 = (7 : Fin 8).val)
      ∧ (((s5 up { state := .winding }).stream 5).state ≠ .closed ∧ ((s5 up { state := .winding }).stream 5).state ≠ .offered)
      ∧ ((up.stream 63).state = .closed ∧ 512 < ({ up with ib := { reservedTotal := 385 } } : State).ib.reservedTotal + 128)
      ∧ ({ up with ib := { reservedTotal := 384 } } : State).ib.reservedTotal + 128 ≤ 512
      ∧ (up.grantWaits 5 = false ∧ up.withdrawWaits 5 = false) ∧ (queued [.withdraw 5]).withdrawWaits 5 = true
      ∧ (queued [.grant 5 8 8 64]).grantWaits 5 = true := by
  refine ⟨⟨by decide, _, rfl⟩, ?_⟩; decide

theorem witness_StreamCloseEffect :
    (reading up).ReadInFlight .command ∧ (up.stream 5).state = .closed
      ∧ (let s := s5 (queued [.grant 5 8 8 64]) { state := .localOpen }
         (s.stream 5).state = .localOpen ∧ s.grantWaits 5 = true)
      ∧ (let s := s5 up { state := .localOpen }
         (s.stream 5).state = .localOpen ∧ s.grantWaits 5 = false)
      ∧ ((s5 up { state := .offered }).stream 5).state = .offered ∧ ((s5 up { state := .winding }).stream 5).state = .winding
      ∧ (let s := s5 (queued [.withdraw 5]) { state := .disrupted }
         (s.stream 5).state = .disrupted ∧ s.withdrawWaits 5 = true)
      ∧ (let s := s5 up { state := .disrupted, offer := some ⟨8, 8, 64⟩ }
         s.withdrawWaits 5 = false ∧ (s.stream 5).offer = some ⟨8, 8, 64⟩)
      ∧ (up.landRing 0).holder ≠ some 5
      ∧ (let l : Landing := ⟨5, [], true, true, [], [0], 1, .none, none⟩
         let s := land up { holder := some 5, landing := some l }
         (s.landRing 0).holder = some 5 ∧ (s.landRing 0).waiting = none ∧ (s.landRing 0).landing = some l ∧ l.cause = .none
           ∧ l.writes ≠ [])
      ∧ (let l : Landing := ⟨5, [1], true, true, [1], [], 0, .none, none⟩
         let s := land up { holder := some 5, landing := some l }
         (s.landRing 0).landing = some l ∧ l.cause = .none ∧ l.writes = [] ∧ l.kept = none)
      ∧ (let s := s5 (land up { holder := some 5 }) { reassembly := { mode := .assembling } }
         (s.landRing 0).landing = none ∧ (s.stream 5).reassembly.mode = .assembling)
      ∧ ((land up { holder := some 5 }).stream 5).reassembly.mode ≠ .assembling := by
  refine ⟨⟨by decide, _, rfl⟩, ?_⟩; decide

theorem witness_QueryEffect :
    (reading up).ReadInFlight .command ∧ (63#64).toNat % 64 ≠ 0 ∧ (64#64).toNat % 64 = 0
      ∧ (let s := acc (cmd run (.linkQuery true 64) (.writing {})) .snapshotWrite 64
         s.hi.deviceState = .running ∧ s.access? .snapshotWrite = some ⟨.snapshotWrite, 0x1000, 64, []⟩
           ∧ s.cm.command = some ⟨.linkQuery true 64, 9, .writing {}⟩)
      ∧ (∀ address : Addr, Command.streamQuery 5 64 ≠ .linkQuery true address)
      ∧ (up.stream 5).offer = none ∧ ((s5 up { offer := some ⟨8, 0, 64⟩ }).stream 5).offer = some ⟨8, 0, 64⟩ := by
  refine ⟨⟨by decide, _, rfl⟩, by decide, by decide, by decide, fun _ => by simp, by decide, by decide⟩

theorem witness_TimersAndUnknownCodes :
    (reading run).ReadInFlight .command ∧ up.lk.state ≠ .offline ∧ run.lk.state = .offline
      ∧ ¬((1 ≤ 0 ∧ 0 ≤ 255) ∧ (20 ≤ 20 ∧ 20 ≤ 20000))
      ∧ ((1 ≤ 255 ∧ 255 ≤ 255) ∧ (20 ≤ 20000 ∧ 20000 ≤ 20000) ∧ (1 ≤ 15 ∧ 15 ≤ 15) ∧ (50 ≤ 50000 ∧ 50000 ≤ 50000)
        ∧ (1 ≤ 1000 ∧ 1000 ≤ 1000) ∧ (1 ≤ 65535 ∧ 65535 ≤ 65535)) := by
  refine ⟨⟨by decide, _, rfl⟩, ?_⟩; decide

/-- A stored parcel by its index. -/
def stored (k : Nat) : StoredData := ⟨k, k == 0, false, 0, [1]⟩

theorem witness_ClaimsAndNeeds :
    (let s := q5 up [.data (stored 0)]
     s.queue 5 = .data (stored 0) :: [] ∧ (stored 0).index = 0 ∧ (s.stream 5).reassembly.mode ≠ .assembling
       ∧ ¬s.Busy 5 ∧ (s.landRing 0).holder ≠ some 5 ∧ 5 ∉ (s.landRing 0).claimQueue ∧ (s.landRing 0).Free)
      ∧ ¬((land up { holder := some 7 }).landRing 0).Free
      ∧ (((land up { claimQueue := [5] }).landRing 0).Free ∧ ((land up { claimQueue := [5] }).landRing 0).claimQueue = 5 :: [])
      ∧ (let s := s5 (land up { holder := some 5 }) { state := .opened, reassembly := { mode := .assembling } }
         (s.landRing 0).holder = some 5 ∧ (s.stream 5).reassembly.mode = .assembling ∧ (s.landRing 0).landing = none
           ∧ (s.landRing 0).waiting = none ∧ s.queue 5 = [])
      ∧ (let l : Landing := ⟨5, [1], true, true, [1], [], 0, .none, none⟩
         let s := land up { holder := some 5, landing := some l }
         ¬(s.landRing 0).BufferAvailable ∧ (s.landRing 0).landing = some l ∧ l.unplaced ≠ []
           ∧ (s.landRing 0).episode = false)
      ∧ ((land up { episode := true }).landRing 0).episode = true := by
  refine ⟨⟨rfl, rfl, by decide, ?_, by decide, by decide, rfl, rfl, rfl⟩, ?_, ⟨⟨rfl, rfl, rfl⟩, rfl⟩, by decide, ⟨?_, rfl, by decide, rfl⟩,
    rfl⟩
  · rintro (⟨l, hl, -⟩ | ⟨h, -⟩)
    · cases (show (none : Option Landing) = some l from hl)
    · exact absurd h (by decide)
  · rintro ⟨h, -⟩; exact absurd h (by decide)
  · rintro (⟨b, hb, -⟩ | ⟨k, a, n, h⟩)
    · cases (show (none : Option Buffer) = some b from hb)
    · exact absurd h (List.not_mem_nil)

/-- Stream 5 OPEN with a queue, its ring's holder, a buffer, and a reassembly record. -/
def delivering (q : List InboundEntry) (mode : Mode) (expected bytes : Nat) : State :=
  let e : StreamEntry :=
    { state := .opened, maxInbound := 64, allotment := 8, occupancy := 2, returnBatch := 4
      reassembly := { mode := mode, expected := expected, bytesSoFar := bytes } }
  land (q5 (s5 up e) q) { holder := some 5, cache := [.usable 0 0x3000 256] }

theorem delivering_deliverable (h : InboundEntry) (q : List InboundEntry) (mode : Mode) (expected bytes : Nat) :
    (delivering (h :: q) mode expected bytes).Deliverable 5 := by
  refine ⟨?_, h, q, rfl, ?_⟩
  · rintro (⟨l, hl, -⟩ | ⟨-, hw⟩)
    · exact absurd hl (by show (none : Option Landing) ≠ some l; simp)
    · exact hw rfl
  · rintro d -
    show ((delivering (h :: q) mode expected bytes).WouldWrite 5 d ∧ LandingRing.BufferAvailable _) ∨ _ ∨ _
    have buffer : (((delivering (h :: q) mode expected bytes).landRing 0)).BufferAvailable :=
      .inr ⟨0, 0x3000, 256, by show _ ∈ [CacheEntry.usable 0 0x3000 256]; simp⟩
    by_cases hm : mode = .assembling
    · subst hm
      by_cases h0 : d.index = 0
      · exact .inr (.inr ⟨rfl, .inl h0⟩)
      · by_cases h1 : d.index = expected
        · rcases Nat.lt_or_ge bytes 64 with hb | hb
          · exact .inl ⟨.inl ⟨rfl, h0, h1, hb⟩, buffer⟩
          · exact .inr (.inr ⟨rfl, .inr (.inr hb)⟩)
        · exact .inr (.inr ⟨rfl, .inr (.inl h1)⟩)
    · by_cases h0 : d.index = 0
      · exact .inl ⟨.inr ⟨hm, h0, rfl⟩, buffer⟩
      · exact .inr (.inl ⟨hm, h0⟩)

/-- Every head kind, index and mode that DELIVERY_TAKE tells apart, at a stream that is deliverable. -/
theorem witness_DeliveryTakeEffect :
    (∀ h q mode expected bytes, (delivering (h :: q) mode expected bytes).hi.deviceState = .running
        ∧ (delivering (h :: q) mode expected bytes).Deliverable 5)
      ∧ (delivering [.cutMarker] .assembling 1 0).queue 5 = .cutMarker :: []
      ∧ (delivering [.withdrawMarker] .idle 0 0).queue 5 = .withdrawMarker :: []
      ∧ ((s5 up { state := .winding }).stream 5).state = .winding
      ∧ (let s := delivering [.data (stored 3)] .assembling 3 63
         s.queue 5 = .data (stored 3) :: [] ∧ (stored 3).index ≠ 0
           ∧ (stored 3).index = (s.stream 5).reassembly.expected
           ∧ (s.stream 5).reassembly.bytesSoFar < (s.stream 5).maxInbound)
      ∧ (let s := delivering [.data (stored 3)] .assembling 3 64
         (s.stream 5).maxInbound ≤ (s.stream 5).reassembly.bytesSoFar)
      ∧ (stored 3).index ≠ ((delivering [.data (stored 3)] .assembling 2 0).stream 5).reassembly.expected
      ∧ (stored 0).index = 0 ∧ ((delivering [.data (stored 0)] .idle 0 0).stream 5).reassembly.mode ≠ .assembling
      ∧ run.hi.deviceState = .running ∧ (∀ i, ¬run.Deliverable i)
      ∧ ((delivering [.data (stored 3)] .assembling 3 0).stream 5).state = .opened
      ∧ ¬(((delivering [.data (stored 3)] .assembling 3 0).stream 5).returnBatch ≤ 0 + 1
        ∨ ((delivering [.data (stored 3)] .assembling 3 0).stream 5).occupancy ≤ 1)
      ∧ (queued [.grant 5 8 1 64]).grantWaits 5 = true ∧ (queued [.withdraw 5]).withdrawWaits 5 = true := by
  refine ⟨fun h q mode expected bytes => ⟨rfl, delivering_deliverable h q mode expected bytes⟩, by decide, by decide,
    by decide, by decide, by decide, by decide, by decide, by decide, by decide, ?_, by decide, by decide, by decide, by decide⟩
  rintro i ⟨-, h, q, hq, -⟩
  have : ∀ i : Fin 64, run.queue i = [] := by decide
  rw [this i] at hq; cases hq

theorem witness_BytesPlaced :
    let l : Landing := ⟨5, [1], true, true, [1], [], 0, .none, none⟩
    ((land up { landing := some l }).landRing 0).landing = some l
      ∧ l.unplaced.drop ((fillBuffers [] l.unplaced).map fun f => f.2.length).sum ≠ [] := by decide

/-- A landing with one write in flight. -/
def landing (unplaced : List Byte) (whole last : Bool) (cause : LandingCause) (kept : Option KeptMessage) : State :=
  acc (land up { holder := some 5, landing := some ⟨5, [1], last, whole, unplaced, [0], 1, cause, kept⟩ })
    (.landingWrite 0 0) 1

theorem witness_MessageEnds :
    (let s := landing [1] true true .none none
     s.hi.deviceState = .running ∧ s.access? (.landingWrite 0 0) = some ⟨.landingWrite 0 0, 0x1000, 1, []⟩
       ∧ (s.landRing 0).landing = some ⟨5, [1], true, true, [1], [0], 1, .none, none⟩)
      ∧ ([0].filter fun n => decide (n ≠ 0)) = [] ∧ ((landing [] false true .none none).landRing 0).landing =
          some ⟨5, [1], true, false, [], [0], 1, .none, none⟩
      ∧ ((landing [] true false .hostWriteFault none).landRing 0).landing =
          some ⟨5, [1], false, true, [], [0], 1, .hostWriteFault, none⟩
      ∧ ((landing [] true false .linkLost (some ⟨4, 0, 1, 0⟩)).landRing 0).landing =
          some ⟨5, [1], false, true, [], [0], 1, .linkLost, some ⟨4, 0, 1, 0⟩⟩
      ∧ (let s := land up { holder := some 5, gapTimer := .running 10000 }
         (s.landRing 0).gapTimer = .running 10000 ∧ (s.landRing 0).holder = some 5)
      ∧ (up.landRing 0).gapTimer = .idle := by decide

theorem witness_ContextOutcomes :
    ((ctx up 8 { stream := 5 }).context 8).stream = (5 : Fin 64).val
      ∧ ((s5 up { sendLine := [8] }).stream 5).sendLine.filter (fun x => decide (x ≠ 8)) = []
      ∧ ((s5 up { sendLine := [8, 9] }).stream 5).sendLine.filter (fun x => decide (x ≠ 8)) ≠ []
      ∧ (gathering true [] 0).tx.staging = .reading (described 8) true [] ∧ (described 8).context = 8
      ∧ (staged 8 1).tx.staging = .ready (described 8) [1]
      ∧ ((∃ x ∈ (refetching true []).sq.replay, (∃ j k o n f l m, x.content = .data 8 j k o n f l m) ∧ x.seq = 4)
        ∧ (refetching true []).sq.slot = .reading 4 true [])
      ∧ ((replaying (.data 8 5 0 0 1 true true 0) (.ready 4 [1])).sq.slot = .ready 4 [1])
      ∧ (let x := (ctx up 8 { state := .sent, parcelCount := 4, acknowledged := 3 }).context 8
         x.state = .sent ∧ x.acknowledged + 1 = x.parcelCount)
      ∧ (let x := (ctx up 8 { state := .sending, parcelCount := 4 }).context 8
         x.state ≠ .sent) := by
  refine ⟨by decide, by decide, by decide, by decide, by decide, by decide, ⟨⟨_, List.mem_singleton_self _, ⟨_, _, _, _, _, _, _, rfl⟩, rfl⟩, rfl⟩,
    by decide, by decide, by decide⟩

theorem witness_ParcelRoundTrip :
    (Parcel.data 4095 ⟨255, 8191, true, false, 0xFFFF, List.replicate 128 7⟩).wellFormed = true
      ∧ 1 ≤ (List.replicate 128 (7 : Byte)).length ∧ (List.replicate 128 (7 : Byte)).length ≤ 128
      ∧ (Parcel.hello ⟨255, 255, 255, 65535, 1⟩).wellFormed = true := by decide

/-- The state after reset, with the signal's report waiting, meets each invariant, and its step answers a next state. -/
theorem witness_invariants :
    let s : State := { State.reset with pending := [.signalAcquired] }
    (∃ t, step s = .next t) ∧ ControlOk s.control ∧ s.ReservationsOk ∧ s.CreditsOk ∧ s.SequencingOk ∧ s.CompletionsOk
      ∧ s.DeviceOk ∧ s.FaultOk := by
  refine ⟨⟨_, rfl⟩, ?_, ?_, ?_, ?_, ?_, ?_, ?_⟩
  · unfold ControlOk; decide
  · unfold Part.ReservationsOk; decide
  · unfold Part.CreditsOk StreamEntry.CreditsOk; decide
  · exact ⟨by decide, by decide, rfl, by decide, by decide, by decide, by decide⟩
  · unfold Part.CompletionsOk; decide
  · unfold Part.DeviceOk; decide
  · intro h; exact absurd h (by decide)

/-- A part in FAULT with a command that leaves it there, and one in each other device state. -/
theorem witness_DeviceStateTransitions :
    (dev .fault true 0).hi.deviceState = .fault ∧ (dev .fault true 0).FaultOk
      ∧ (∃ q : Part, exec .sendHello (dev .fault true 0) = (dev .fault true 0).become q ∧ q.hi.deviceState = .fault)
      ∧ (dev .disabled false 0).hi.deviceState = .disabled ∧ run.hi.deviceState = .running := by
  refine ⟨rfl, fun _ => ?_, ⟨_, rfl, by decide⟩, rfl, rfl⟩
  decide

theorem witness_InterruptOnTheEdge :
    ¬(events 1 7).InterruptHolds
      ∧ (∃ q : Part, exec (.intMaskWrite 6) (events 1 7) = (events 1 7).become q ∧ q.InterruptHolds)
      ∧ (events 1 6).InterruptHolds ∧ Instr.intMaskWrite 6 ≠ .powerOnReset := by
  refine ⟨?_, ⟨_, rfl, ?_⟩, ?_, by decide⟩ <;> (unfold Part.InterruptHolds; decide)

end Sys2Proof.Tests
end

/-! PROOF. GRANT arrivals (R6, R7): what SC does with an accepted GRANT, one lemma for each case of
`Part.takeGrant`, and the obligation assembled from them. -/

namespace Sys2Proof.Machine

/-! ## A GRANT accepted for a stream -/

/-- A changed stream entry, written as the entry set. -/
theorem Part.modStream_eq_set (p : Part) (i : Fin 64) (f : StreamEntry → StreamEntry) :
    p.modStream i f = { p with streams := p.streams.set i (f (p.stream i)) } := rfl

/-- A GRANT with the expected number goes to SC after its acceptance (R48). -/
theorem exec_grantArrival_expected {s : State} {g : GrantParcel} {i : Fin 64} (listening : s.Listening)
    (names : g.stream = i.val) :
    exec (.grantArrival s.sq.expected g) s = s.become (s.accepted.takeGrant i g) := by
  have taken : s.toPart.grantArrives s.sq.expected g = s.accepted.takeGrant i g := by
    rw [Part.grantArrives, Part.sequencedArrives_expected listening, names, Part.toStream_val]
  exact congrArg s.become taken

/-! ## Credits and offers that a GRANT adds to -/

section
variable {p : Part} {i : Fin 64} {g : GrantParcel}

theorem Part.addCredits_of_le {n : Nat} (fits : (p.stream i).credits + n ≤ (p.stream i).peerAllotment) :
    p.addCredits i n =
      { p with streams := p.streams.set i { p.stream i with credits := (p.stream i).credits + n } } := by
  simp only [Part.addCredits, if_neg (Nat.not_lt.2 fits), Part.modStream_eq_set, Nat.min_eq_right fits]

theorem Part.addCredits_of_lt {n : Nat} (excess : (p.stream i).peerAllotment < (p.stream i).credits + n) :
    p.addCredits i n =
      Part.withStreamError
        { p with streams := p.streams.set i { p.stream i with credits := (p.stream i).peerAllotment } }
        i .creditExcess := by
  simp only [Part.addCredits, if_pos excess, Part.modStream_eq_set, Nat.min_eq_left (Nat.le_of_lt excess),
    Part.streamProtocolError_eq]

theorem Part.saveOffer_of_none (unsaved : (p.stream i).offer = none) :
    p.saveOffer i g =
      { p with
        streams := p.streams.set i { p.stream i with offer := some ⟨g.allotment, g.credits, g.maxMessage⟩ } } := by
  simp only [Part.saveOffer, unsaved, Part.modStream_eq_set]

theorem Part.saveOffer_of_le {o : Offer} (saved : (p.stream i).offer = some o)
    (fits : o.credits + g.credits ≤ o.allotment) :
    p.saveOffer i g =
      { p with
        streams := p.streams.set i
          { p.stream i with offer := some { o with credits := o.credits + g.credits } } } := by
  simp only [Part.saveOffer, saved, if_neg (Nat.not_lt.2 fits), Part.modStream_eq_set, Nat.min_eq_right fits]

theorem Part.saveOffer_of_lt {o : Offer} (saved : (p.stream i).offer = some o)
    (excess : o.allotment < o.credits + g.credits) :
    p.saveOffer i g =
      Part.withStreamError
        { p with
          streams := p.streams.set i { p.stream i with offer := some { o with credits := o.allotment } } }
        i .creditExcess := by
  simp only [Part.saveOffer, saved, if_pos excess, Part.modStream_eq_set, Nat.min_eq_left (Nat.le_of_lt excess),
    Part.streamProtocolError_eq]

/-! ## The checks of R6 -/

/-- A GRANT that SC ignores: the stream is CLOSING and the peer's WITHDRAW has not been seen (R6). -/
def StreamEntry.IgnoresGrant (e : StreamEntry) : Prop := e.state = .closing ∧ e.peerWithdrawSeen = false

theorem StreamEntry.ignoresGrant_iff (e : StreamEntry) :
    (decide (e.state = .closing) && !e.peerWithdrawSeen) = true ↔ e.IgnoresGrant := by
  simp [StreamEntry.IgnoresGrant]

theorem Part.takeGrant_of_ignored (ignored : (p.stream i).IgnoresGrant) : p.takeGrant i g = p :=
  if_pos ((StreamEntry.ignoresGrant_iff _).2 ignored)

theorem Part.takeGrant_of_not_inRange (heard : ¬(p.stream i).IgnoresGrant) (outside : ¬GrantInRange g) :
    p.takeGrant i g = p.withStreamError i .grantInvalid := by
  rw [← StreamEntry.ignoresGrant_iff] at heard
  rw [← grantValid_iff, Bool.not_eq_true] at outside
  simp only [Part.takeGrant, if_neg heard, outside, Bool.not_false, if_true, Part.streamProtocolError_eq]

theorem Part.takeGrant_of_not_agrees (heard : ¬(p.stream i).IgnoresGrant) (inRange : GrantInRange g)
    (differs : ¬(p.stream i).Agrees g) : p.takeGrant i g = p.withStreamError i .grantMismatch := by
  rw [← StreamEntry.ignoresGrant_iff] at heard
  rw [← StreamEntry.mismatch_iff] at differs
  simp only [Part.takeGrant, if_neg heard, (grantValid_iff g).2 inRange, Bool.not_true, Bool.false_eq_true, if_false,
    if_pos differs, Part.streamProtocolError_eq]

/-! ## The effect of a valid GRANT by stream state (R7) -/

/-- Where each stream state takes a GRANT that passes the checks of R6. -/
theorem Part.takeGrant_of_valid (inRange : GrantInRange g) (agrees : (p.stream i).Agrees g) :
    ((p.stream i).state = .closed → p.takeGrant i g = p.modStream i fun e => e.withGrant .offered g)
    ∧ ((p.stream i).state = .localOpen → p.takeGrant i g = p.modStream i fun e => e.withGrant .opened g)
    ∧ ((p.stream i).state = .offered ∨ (p.stream i).state = .opened → p.takeGrant i g = p.addCredits i g.credits)
    ∧ (((p.stream i).state = .closing ∧ (p.stream i).peerWithdrawSeen = true) ∨ (p.stream i).state = .winding
        ∨ (p.stream i).state = .disrupted → p.takeGrant i g = p.saveOffer i g) := by
  have noMismatch := fun mismatch => (StreamEntry.mismatch_iff (p.stream i) g).1 mismatch agrees
  simp only [Part.takeGrant, (grantValid_iff g).2 inRange, Bool.not_true, Bool.false_eq_true, if_false,
    if_neg noMismatch]
  refine ⟨fun closed => ?_, fun localOpen => ?_, ?_, ?_⟩
  · simp [closed]
  · simp [localOpen]
  · rintro (offered | opened)
    · simp [offered]
    · simp [opened]
  · rintro (⟨closing, seen⟩ | winding | disrupted)
    · simp [closing, seen]
    · simp [winding]
    · simp [disrupted]

end

/-- Settles O20: an accepted GRANT is `Part.takeGrant` on the part after its acceptance; the checks of R6 come first,
and each stream state then has its own case. -/
theorem grantArrivalEffect : Obligations.GrantArrivalEffect := by
  unfold Obligations.GrantArrivalEffect
  constructor
  · intro s g i listening names
    rw [exec_grantArrival_expected listening names]
    refine ⟨fun ignored => ?_, fun heard outside => ?_, fun heard inRange differs => ?_⟩
    · exact congrArg s.become (Part.takeGrant_of_ignored ignored)
    · exact congrArg s.become (Part.takeGrant_of_not_inRange heard outside)
    · exact congrArg s.become (Part.takeGrant_of_not_agrees heard inRange differs)
  · intro s g i listening names inRange agrees
    obtain ⟨offers, opens, adds, saves⟩ := Part.takeGrant_of_valid (p := s.accepted) (i := i) inRange agrees
    rw [exec_grantArrival_expected listening names]
    refine ⟨fun closed => ?_, fun localOpen => ?_, fun active => ?_, fun ending => ?_⟩
    · exact congrArg s.become (offers closed)
    · exact congrArg s.become (opens localOpen)
    · rw [adds active]
      exact ⟨fun fits => congrArg s.become (Part.addCredits_of_le fits),
        fun excess => congrArg s.become (Part.addCredits_of_lt excess)⟩
    · rw [saves ending]
      exact ⟨fun unsaved => congrArg s.become (Part.saveOffer_of_none unsaved), fun o saved =>
        ⟨fun fits => congrArg s.become (Part.saveOffer_of_le saved fits),
          fun excess => congrArg s.become (Part.saveOffer_of_lt saved excess)⟩⟩

end Sys2Proof.Machine

/-! PROOF. Consumer rings (R88, R89): what the shared ring operations do to the part, one lemma each, then the
NOTIFY of a ring and the end of a record read, assembled from them. -/

namespace Sys2Proof.Machine

section
variable (p : Part) (ring : RingId)

/-! ## A ring and the host accesses beside it -/

/-- Of two changes of one ring the second sees what the first wrote. -/
theorem Part.modConsumer_modConsumer (f g : ConsumerRing → ConsumerRing) :
    (p.modConsumer ring f).modConsumer ring g = p.modConsumer ring fun c => g (f c) := by
  cases ring with
  | command => rfl
  | send r => simp [Part.modConsumer, Table.modify]
  | landing r => simp [Part.modConsumer, Table.modify]

/-- The end of an access and a change of a ring touch different units. -/
theorem Part.endAccess_modConsumer (k : AccessKind) (f : ConsumerRing → ConsumerRing) :
    (p.endAccess k).modConsumer ring f = { p.modConsumer ring f with hi := (p.endAccess k).hi } := by
  cases ring <;> rfl

@[simp] theorem Part.consumer_endAccess (k : AccessKind) : (p.endAccess k).consumer ring = p.consumer ring := by
  cases ring <;> rfl

/-- The access that reads the record at the ring's position (R87). -/
def Part.recordRead : Access :=
  ⟨.ringRead ring, (p.ringConfig ring).base + BitVec.ofNat 64 (32 * (p.consumer ring).position), 32, []⟩

/-- HI with the read of the ring's record in flight, after what it has in flight already. -/
def Part.readingHost : HostInterface := { p.hi with accesses := p.hi.accesses ++ [p.recordRead ring] }

/-- A read begins at the ring's position, and the ring is READING; nothing else changes (R88). -/
theorem Part.beginRead_eq :
    p.beginRead ring =
      { p.modConsumer ring fun c => { c with state := .reading } with hi := p.readingHost ring } := by
  cases ring <;> rfl

/-- A change of a ring that keeps its position keeps the read of its record. -/
theorem Part.readingHost_modConsumer {f : ConsumerRing → ConsumerRing}
    (keeps : (f (p.consumer ring)).position = (p.consumer ring).position) :
    (p.modConsumer ring f).readingHost ring = p.readingHost ring := by
  have config : (p.modConsumer ring f).ringConfig ring = p.ringConfig ring := by cases ring <;> rfl
  simp only [Part.readingHost, Part.recordRead, Part.modConsumer_hi, Part.consumer_modConsumer_self, config, keeps]

end

/-! ## A notification (R88) -/

section
variable {p : Part} {ring : RingId} {value : BitVec 32}

theorem Part.notify_of_not_running (stopped : p.hi.deviceState ≠ .running) : p.notify value = p := by
  simp [Part.notify, Part.running, stopped]

theorem Part.notify_ring (running : p.hi.deviceState = .running) (names : notifySelector value = .ring ring) :
    p.notify value = p.notifyRing ring := by
  simp [Part.notify, Part.running, running, names]

theorem Part.notifyRing_idle_room (idle : (p.consumer ring).state = .idle) (room : p.hasRoom ring = true) :
    p.notifyRing ring = p.beginRead ring := by
  simp only [Part.notifyRing, idle, Part.readOrHold, if_pos room]

theorem Part.notifyRing_idle_full (idle : (p.consumer ring).state = .idle) (full : p.hasRoom ring = false) :
    p.notifyRing ring = p.modConsumer ring fun c => { c with state := .held } := by
  simp only [Part.notifyRing, idle, Part.readOrHold, full, Bool.false_eq_true, if_false]

theorem Part.notifyRing_reading (reading : (p.consumer ring).state = .reading) :
    p.notifyRing ring = p.modConsumer ring fun c => { c with renotify := true } := by
  simp only [Part.notifyRing, reading]

theorem Part.notifyRing_returning_or_held
    (busy : (p.consumer ring).state = .returning ∨ (p.consumer ring).state = .held) : p.notifyRing ring = p := by
  obtain returning | held := busy
  · simp only [Part.notifyRing, returning]
  · simp only [Part.notifyRing, held]

end

/-- Settles O7: outside RUNNING the write is ignored, and in RUNNING it is `Part.notifyRing`, by the ring's state. -/
theorem ringNotifyEffect : Obligations.RingNotifyEffect := by
  unfold Obligations.RingNotifyEffect
  intro s value ring names
  have notified : exec (.ringNotify value) s = s.become (s.notify value) := rfl
  refine ⟨fun stopped => ?_, fun running => ?_⟩
  · rw [notified, Part.notify_of_not_running stopped]
  · rw [notified, Part.notify_ring running names]
    refine ⟨fun idle room => ?_, fun idle full => ?_, fun reading => ?_, fun busy => ?_⟩
    · rw [Part.notifyRing_idle_room idle room, Part.beginRead_eq]; rfl
    · rw [Part.notifyRing_idle_full idle full]
    · rw [Part.notifyRing_reading reading]
    · rw [Part.notifyRing_returning_or_held busy]

/-! ## The end of a record read (R89) -/

section
variable {p : Part} {ring : RingId}

/-- A live read that is answered in the device state its unit waits in is delivered there. -/
theorem Part.onReadEnd_delivered {k : AccessKind} {a : Access} {result : ReadEnd} {st : DeviceState}
    {deliver : Part → Part} (inFlight : p.access? k = some a) (answers : readAnswers result a.length = true)
    (state : p.hi.deviceState = st) : p.onReadEnd k result st deliver = deliver (p.endAccess k) := by
  simp only [Part.onReadEnd, inFlight, if_pos answers, Part.onAccessEnd, if_pos state]

@[simp] theorem readCopy_ring (record : List Byte) (ring : RingId) : (readCopy record ring).ring = ring := by
  cases ring <;> rfl

/-- The data of a record read goes by its custody byte. -/
theorem Part.ringReadEnds_data {record : List Byte} {a : Access} (running : p.hi.deviceState = .running)
    (inFlight : p.access? (.ringRead ring) = some a) (length : record.length = a.length) :
    p.ringReadEnds ring (.data record) =
      if fieldAt record 0x1F 1 = 0xA5 then
        ((p.afterCopy ring).useCopy (p.consumer ring).position (readCopy record ring)).settle
      else (p.endAccess (.ringRead ring)).recordNotHanded ring := by
  have taken := Part.takeCopy_eq p (readCopy record ring)
  rw [readCopy_ring] at taken
  have answers : readAnswers (.data record) a.length = true := decide_eq_true length
  simp only [Part.ringReadEnds, Part.onReadEnd_delivered inFlight answers running, recordIsPart_iff, taken]

/-- A notification crossed the read: the record is read again. -/
theorem Part.recordNotHanded_renotify (crossed : (p.consumer ring).renotify = true) :
    p.recordNotHanded ring =
      { p.modConsumer ring fun c => { c with renotify := false, state := .reading } with
        hi := p.readingHost ring } := by
  simp only [Part.recordNotHanded, if_pos crossed, Part.beginRead_eq, Part.modConsumer_modConsumer,
    Part.readingHost_modConsumer]

/-- No notification crossed the read: the ring waits for one. -/
theorem Part.recordNotHanded_idle (quiet : (p.consumer ring).renotify = false) :
    p.recordNotHanded ring = p.modConsumer ring fun c => { c with state := .idle } := by
  simp only [Part.recordNotHanded, quiet, Bool.false_eq_true, if_false]

end

/-- Settles O32: the custody byte decides between the copy, used by the ring's unit, and a record not handed over,
for which the renotify flag decides. -/
theorem ringReadEndEffect : Obligations.RingReadEndEffect := by
  unfold Obligations.RingReadEndEffect
  intro s ring record a running inFlight length ended
  have answered : exec (.ringReadEnd ring (.data record)) s = s.become (s.ringReadEnds ring (.data record)) := rfl
  rw [answered, Part.ringReadEnds_data running inFlight length]
  refine ⟨fun handed => ?_, fun kept crossed => ?_, fun kept quiet => ?_⟩
  · rw [if_pos handed]
    refine ⟨?_, ?_, ?_⟩
    · rintro rfl; rfl
    · rintro r rfl; rfl
    · rintro r rfl; rfl
  · rw [if_neg kept, Part.recordNotHanded_renotify (by rwa [Part.consumer_endAccess]), Part.endAccess_modConsumer,
      Part.readingHost, Part.recordRead, Part.consumer_endAccess]
    cases ring <;> rfl
  · rw [if_neg kept, Part.recordNotHanded_idle (by rwa [Part.consumer_endAccess]), Part.endAccess_modConsumer]
    rfl

end Sys2Proof.Machine

/-! PROOF. NOTIFY selectors (R150): what a write whose selector names nothing does, and that a ring notification
reads the selector alone. -/

namespace Sys2Proof.Machine

section
variable {p : Part} {ring : RingId} {value v w : BitVec 32}

theorem exec_notifyInvalidSelector (s : State) (value : BitVec 32) :
    exec (.notifyInvalidSelector value) s = s.become (s.notify value) := rfl

theorem exec_ringNotify (s : State) (value : BitVec 32) :
    exec (.ringNotify value) s = s.become (s.notify value) := rfl

theorem Part.notify_nothing (running : p.hi.deviceState = .running) (names : notifySelector value = .nothing) :
    p.notify value = p.raise eventNotifyError := by
  simp [Part.notify, Part.running, running, names]

/-- The selector is bits 7 to 0 of the value. -/
theorem notifySelector_congr (low : v.toNat % 256 = w.toNat % 256) : notifySelector v = notifySelector w := by
  simp only [notifySelector, low]

/-- Two writes that name one ring have one effect: outside RUNNING neither acts, and in RUNNING both are the ring's
notification, in which no count occurs. -/
theorem Part.notify_eq_of_same_ring (first : notifySelector v = .ring ring) (second : notifySelector w = .ring ring) :
    p.notify v = p.notify w := by
  by_cases running : p.hi.deviceState = .running
  · rw [Part.notify_ring running first, Part.notify_ring running second]
  · rw [Part.notify_of_not_running running, Part.notify_of_not_running running]

end

/-- Settles O9: a selector that names nothing raises EVENT.NOTIFY_ERROR in RUNNING and is ignored elsewhere; values
with the same low byte name the same ring, and the ring's notification does not read the rest. -/
theorem notifySelectors : Obligations.NotifySelectors := by
  unfold Obligations.NotifySelectors
  refine ⟨fun s value names => ⟨fun stopped => ?_, fun running => ?_⟩, fun s v w ring names low => ?_⟩
  · rw [exec_notifyInvalidSelector, Part.notify_of_not_running stopped]
  · obtain ⟨n, atMostOne, raised⟩ := s.toPart.raise_eq eventNotifyError
    refine ⟨n, atMostOne, ?_⟩
    rw [exec_notifyInvalidSelector, Part.notify_nothing running names, raised]
    rfl
  · have second : notifySelector w = .ring ring := (notifySelector_congr low).symm.trans names
    rw [exec_ringNotify, exec_ringNotify, Part.notify_eq_of_same_ring names second]

end Sys2Proof.Machine

/-! PROOF. SET_TIMERS and the unknown command code (R165, R176, R177): the effect of `Part.setTimers` by its three
cases, and a command's arrival as CM's action on the copy. -/

namespace Sys2Proof.Machine

/-! ## The checks of SET_TIMERS (R176, R177) -/

theorem TimerParameters.valid_iff (t : TimerParameters) : t.valid = true ↔
    (1 ≤ t.ackDelay ∧ t.ackDelay ≤ 255) ∧ (20 ≤ t.replayTimeout ∧ t.replayTimeout ≤ 20000)
      ∧ (1 ≤ t.replayLimit ∧ t.replayLimit ≤ 15) ∧ (50 ≤ t.helloInterval ∧ t.helloInterval ≤ 50000)
      ∧ (1 ≤ t.faultHoldoff ∧ t.faultHoldoff ≤ 1000) ∧ (1 ≤ t.gapTimeout ∧ t.gapTimeout ≤ 65535) := by
  simp [TimerParameters.valid, and_assoc]

section
variable {p : Part} {t : TimerParameters}

theorem Part.setTimers_of_not_offline (online : p.lk.state ≠ .offline) :
    p.setTimers t = p.completeCommand .badState := if_pos online

theorem Part.setTimers_of_not_valid (offline : p.lk.state = .offline) (outside : ¬t.valid = true) :
    p.setTimers t = p.completeCommand .badParam := by
  simp [Part.setTimers, offline, outside]

theorem Part.setTimers_of_valid (offline : p.lk.state = .offline) (inRange : t.valid = true) :
    p.setTimers t = Part.completeCommand { p with cm := { p.cm with timers := t } } .ok := by
  simp [Part.setTimers, offline, inRange]

end

/-! ## A command CM has taken -/

section
variable (s : State) (tag : BitVec 32)

/-- CM's copy leaves the link controller as it was. -/
theorem Part.commandTaken_lk (command : Command) (phase : Phase) : (s.commandTaken tag command phase).lk = s.lk := rfl

/-- A command completed as it is taken, its timer parameters replaced first. -/
theorem Part.completeCommand_taken_timers (command : Command) (t : TimerParameters) (status : Status) :
    Part.completeCommand { s.commandTaken tag command .acting with
        cm := { (s.commandTaken tag command .acting).cm with timers := t } } status =
      { s.commandTaken tag command (.offered status) with
        cm := { (s.commandTaken tag command (.offered status)).cm with timers := t } } := rfl

variable {s tag}

/-- SET_TIMERS with its record read in flight: CM acts on the copy (R165). -/
theorem exec_setTimers_taken (reading : s.ReadInFlight .command) (ack limit replay hello holdoff gap : Nat) :
    exec (.setTimers tag ack limit replay hello holdoff gap) s = s.become
      (Part.setTimers (s.commandTaken tag (.setTimers ack limit replay hello holdoff gap) .acting)
        ⟨ack, replay, limit, hello, holdoff, gap⟩).settle :=
  Part.recordArrives_command reading tag (.setTimers ack limit replay hello holdoff gap)

/-- A code that names no command is completed as it is taken (R165). -/
theorem exec_unknownCommand_taken (reading : s.ReadInFlight .command) (code : Nat) :
    exec (.unknownCommand tag code) s = s.become
      ((s.commandTaken tag (.unknown code) .acting).completeCommand .unknownCommand).settle :=
  Part.recordArrives_command reading tag (.unknown code)

end

/-- Settles O45: the first check is the link's state, which the taking of the copy leaves alone, the second the six
ranges; each of the three outcomes, like an unknown code, completes the command as it is taken. -/
theorem timersAndUnknownCodes : Obligations.TimersAndUnknownCodes := by
  unfold Obligations.TimersAndUnknownCodes
  refine fun s tag reading => ⟨fun ack limit replay hello holdoff gap => ?_, fun code => ?_⟩
  · have link := Part.commandTaken_lk s tag (.setTimers ack limit replay hello holdoff gap) .acting
    have ranges := TimerParameters.valid_iff ⟨ack, replay, limit, hello, holdoff, gap⟩
    dsimp only
    rw [exec_setTimers_taken reading, ← link]
    refine ⟨fun online => ?_, fun offline outside => ?_, fun offline inRange => ?_⟩
    · rw [Part.setTimers_of_not_offline online, Part.completeCommand_taken]
    · rw [Part.setTimers_of_not_valid offline (mt ranges.mp outside), Part.completeCommand_taken]
    · rw [Part.setTimers_of_valid offline (ranges.mpr inRange), Part.completeCommand_taken_timers]
  · rw [exec_unknownCommand_taken reading, Part.completeCommand_taken]

end Sys2Proof.Machine

/-! PROOF. Commands and resets (R161, R162, R181 to R193): every command as an effect on the part, the values after a
reset, and the registers of the window. -/

namespace Sys2Proof.Machine

/-! ## A command's effect on the part -/

/-- What a command does to the part, whatever waits in the queue. -/
def Instr.effect (p : Part) : Instr → Part
  | .powerOnReset => p.powerOnReset
  | .controlReset value | .controlEnable value | .controlDisable value => p.writeControl value
  | .eventWrite value => p.writeEvent value
  | .intMaskWrite value => p.writeMask value
  | .registerWriteOther offset value => p.writeRegister offset value
  | .ringNotify value | .completionReturn value | .notifyInvalidSelector value => p.notify value
  | .configReadEnd result => p.configReadEnds result
  | .signalAcquired => p.signalAcquired
  | .signalLost => p.signalLost
  | .dataArrival seq d => p.dataArrives seq d
  | .grantArrival seq g => p.grantArrives seq g
  | .withdrawArrival seq stream => p.withdrawArrives seq stream
  | .cutArrival seq stream => p.cutArrives seq stream
  | .voidArrival seq => p.voidArrives seq
  | .ackArrival n => p.ackArrives n
  | .retryArrival n => p.retryArrives n
  | .helloArrival h => p.helloArrives h
  | .badParcel bytes => p.bytesArrive bytes
  | .helloTimerExpiry => p.helloExpiry
  | .holdoffTimerExpiry => p.holdoffExpiry
  | .ackDelayExpiry => p.ackDelayExpires
  | .replayTimerExpiry => p.replayExpiry
  | .gapTimerExpiry ring => (p.gapExpiry ring).settle
  | .interruptHoldoffExpiry => p.holdoffExpires
  | .hostAccessTimeout access => p.accessTimesOut access
  | .teardownApply => p.applyTeardown.settle
  | .sendHello => p.sendHello
  | .sendPendingNote => p.sendNote
  | .sendReplay => p.sendReplay
  | .sendControlParcel => p.sendControl.settle
  | .sendDataParcel => p.sendData
  | .transmissionEnd => p.transmissionEnds.settle
  | .dataPick => p.pick
  | .gatherReadEnd k result => p.gatherReadEnds k result
  | .refetchStart => p.refetch
  | .refetchEnd k result => p.refetchReadEnds k result
  | .ringReadEnd ring result => p.ringReadEnds ring result
  | .custodyWriteEnd ring ok => p.custodyWriteEnds ring ok
  | .heldRingRead ring => p.heldRead ring
  | .sendHeadRecord ring h => p.recordArrives (.send ring (.head h))
  | .sendFragmentRecord ring record | .strayRecord ring record => p.recordArrives (.send ring record)
  | .landingRecord ring address length => p.recordArrives (.landing ring address length)
  | .linkStart tag code window => p.recordArrives (.command tag (.linkStart code window))
  | .linkStop tag => p.recordArrives (.command tag .linkStop)
  | .streamOpen tag i a r allotment batch size =>
    p.recordArrives (.command tag (.streamOpen i a r allotment batch size))
  | .streamClose tag i => p.recordArrives (.command tag (.streamClose i))
  | .streamQuery tag i address => p.recordArrives (.command tag (.streamQuery i address))
  | .linkQuery tag clear address => p.recordArrives (.command tag (.linkQuery clear address))
  | .setTimers tag ack limit replay hello holdoff gap =>
    p.recordArrives (.command tag (.setTimers ack limit replay hello holdoff gap))
  | .unknownCommand tag code => p.recordArrives (.command tag (.unknown code))
  | .snapshotWriteEnd ok => p.snapshotWriteEnds ok
  | .deliveryTake => p.deliveryTakes
  | .landingWriteEnd ring k ok => p.landingWriteEnds ring k ok
  | .completionWriteBegin => p.writeNext
  | .completionWriteEnd ok => p.completionWriteEnds ok
  | .staleAccessEnd access _ => p.oldAccessEnds access

/-- Every command answers its effect on the part, with the queue as it was. -/
theorem exec_eq_effect (c : Instr) (s : State) : exec c s = s.become (Instr.effect s.toPart c) := by
  cases c <;> rfl

/-- Settles O1: `step` is the front command's `exec` by definition, and every command answers its effect. -/
theorem stepRunsTheFrontCommand : Obligations.StepRunsTheFrontCommand := by
  unfold Obligations.StepRunsTheFrontCommand
  refine ⟨⟨fun c rest s front => ?_, fun s empty => ?_⟩, fun c s => ⟨_, exec_eq_effect c s⟩⟩
  · simp only [step, front]
  · simp only [step, empty]

/-! ## Resets (R191, R192) -/

/-- Settles O2: a reset writes the default of every field, which is the value listed; a table of defaults reads as the
default at every entry. -/
theorem powerOnResetValues : Obligations.PowerOnResetValues := by
  unfold Obligations.PowerOnResetValues
  refine ⟨fun s => rfl, rfl, rfl, rfl, fun i => ⟨Table.get_fill .., Table.get_fill ..⟩, rfl, rfl, rfl, rfl,
    fun c => Table.get_fill .., fun r => Table.get_fill .., rfl, fun r => Table.get_fill .., rfl, rfl, rfl, rfl, ?_⟩
  intro ring
  cases ring with
  | command => rfl
  | send r => exact Table.get_fill ..
  | landing r => exact Table.get_fill ..

/-- A CONTROL write that sets RESET resets the part in every device state (R183, R192). -/
theorem Part.writeControl_of_reset {p : Part} {value : BitVec 32} (resets : value.getLsbD 1 = true) :
    p.writeControl value = p.functionReset := if_pos resets

/-- A CONTROL write that takes ENABLE from 1 to 0 resets a RUNNING part (R183, R192). -/
theorem Part.writeControl_of_disable {p : Part} {value : BitVec 32} (keeps : value.getLsbD 1 = false)
    (clears : value.getLsbD 0 = false) (enabled : p.hi.enable = true) (running : p.hi.deviceState = .running) :
    p.writeControl value = p.functionReset := by
  simp only [Part.writeControl, keeps, clears, enabled, running, Bool.false_eq_true, if_false]

/-- Settles O3: both writes are `Part.functionReset`. -/
theorem functionResetEffect : Obligations.FunctionResetEffect := by
  unfold Obligations.FunctionResetEffect
  refine fun s => ⟨fun value resets => ?_, fun value keeps clears enabled running => ?_⟩
  · exact congrArg s.become (Part.writeControl_of_reset resets)
  · exact congrArg s.become (Part.writeControl_of_disable keeps clears enabled running)

/-! ## CONTROL without RESET (R183, R185, R187) -/

section
variable {p : Part} {value : BitVec 32}

theorem Part.writeControl_of_keep (keeps : value.getLsbD 1 = false) (same : value.getLsbD 0 = p.hi.enable) :
    p.writeControl value = p := by
  simp only [Part.writeControl, keeps, Bool.false_eq_true, if_false, if_pos same]

theorem Part.writeControl_of_enable (keeps : value.getLsbD 1 = false) (sets : value.getLsbD 0 = true)
    (disabled : p.hi.enable = false) :
    p.writeControl value =
      if p.hi.deviceState = .disabled then Part.beginLoad { p with hi := { p.hi with enable := true } }
      else { p with hi := { p.hi with enable := true } } := by
  cases state : p.hi.deviceState <;>
    simp only [Part.writeControl, keeps, sets, disabled, state, Bool.false_eq_true, Bool.true_eq_false, reduceCtorEq,
      if_false, if_true]

theorem Part.writeControl_of_clear (keeps : value.getLsbD 1 = false) (clears : value.getLsbD 0 = false)
    (enabled : p.hi.enable = true) :
    (p.hi.deviceState = .loading →
      p.writeControl value = { p with hi := { p.hi with enable := false, loadAbandoned := true } })
    ∧ (p.hi.deviceState = .fault → p.writeControl value = { p with hi := { p.hi with enable := false } }) := by
  constructor <;> intro state <;>
    simp only [Part.writeControl, keeps, clears, enabled, state, Bool.false_eq_true, if_false]

/-- A load from an aligned address reads the configuration block (R185). -/
theorem Part.beginLoad_aligned (aligned : (p.hi.configHi ++ p.hi.configLo).toNat % 256 = 0) :
    p.beginLoad =
      { p with hi := { p.hi with
          deviceState := .loading, loadAddress := p.hi.configHi ++ p.hi.configLo, loadAbandoned := false
          accesses := p.hi.accesses ++ [⟨.configRead, p.hi.configHi ++ p.hi.configLo, 256, []⟩] } } :=
  if_pos aligned

/-- A load from a misaligned address faults the part (R185). -/
theorem Part.beginLoad_misaligned (misaligned : (p.hi.configHi ++ p.hi.configLo).toNat % 256 ≠ 0) :
    p.beginLoad =
      Part.enterFault
        { p with hi := { p.hi with
            deviceState := .loading, loadAddress := p.hi.configHi ++ p.hi.configLo, loadAbandoned := false } }
        .configInvalid :=
  if_neg misaligned

end

/-- Settles O4: by what the write does to ENABLE, by the device state, and by the alignment of the address. -/
theorem controlWriteEffect : Obligations.ControlWriteEffect := by
  unfold Obligations.ControlWriteEffect
  refine ⟨fun s value keeps sets disabled => ?_, fun s value keeps => ⟨fun clears enabled loading => ?_,
    fun clears enabled fault => ?_, fun same => ?_⟩⟩
  · have written : exec (.controlEnable value) s = s.become (s.writeControl value) := rfl
    let enabled : Part := { s.toPart with hi := { s.hi with enable := true } }
    rw [written, Part.writeControl_of_enable keeps sets disabled]
    refine ⟨fun state aligned => ?_, fun state misaligned => ?_, fun state => ?_⟩
    · rw [if_pos state]
      exact congrArg s.become (Part.beginLoad_aligned (p := enabled) aligned)
    · rw [if_pos state]
      exact ⟨_, congrArg s.become (Part.beginLoad_misaligned (p := enabled) misaligned), rfl, rfl, rfl, rfl, rfl⟩
    · rw [if_neg (by rcases state with state | state <;> simp [state])]
  · exact congrArg s.become ((Part.writeControl_of_clear keeps clears enabled).1 loading)
  · exact congrArg s.become ((Part.writeControl_of_clear keeps clears enabled).2 fault)
  · have unchanged := congrArg s.become (Part.writeControl_of_keep (p := s.toPart) keeps same)
    exact ⟨unchanged, unchanged⟩

/-! ## EVENT and INT_MASK (R161, R162) -/

/-- Clearing EVENT bits opens no interrupt condition. -/
theorem interruptCondition_of_cleared (event clear mask : BitVec 3)
    (holds : interruptCondition (event &&& ~~~clear) mask = true) : interruptCondition event mask = true := by
  revert event clear mask; decide

/-- Settles O5: clearing bits never opens the condition, so no message goes out; a new mask sends one exactly where the
condition did not hold and does afterwards. -/
theorem eventAndMaskWrites : Obligations.EventAndMaskWrites := by
  unfold Obligations.EventAndMaskWrites
  intro s value
  constructor
  · have quiet : (!interruptCondition s.hi.event s.hi.intMask
        && interruptCondition (s.hi.event &&& ~~~(value.setWidth 3)) s.hi.intMask) = false := by
      cases holds : interruptCondition (s.hi.event &&& ~~~(value.setWidth 3)) s.hi.intMask with
      | false => exact Bool.and_false _
      | true => rw [interruptCondition_of_cleared _ _ _ holds]; rfl
    have written : s.writeEvent value =
        { s.toPart with hi := { s.hi with event := s.hi.event &&& ~~~(value.setWidth 3) } } := by
      simp only [Part.writeEvent, Part.setEventMask, quiet, Bool.false_eq_true, if_false]
    exact congrArg s.become written
  · let opens := !interruptCondition s.hi.event s.hi.intMask && interruptCondition s.hi.event (value.setWidth 3)
    have unmasked : interruptCondition s.hi.event (value.setWidth 3) = true ↔
        ∃ i, i < 3 ∧ s.hi.event.getLsbD i = true ∧ value.getLsbD i = false := by
      rw [interruptCondition_iff { s.toPart with hi := { s.hi with intMask := value.setWidth 3 } }]
      refine exists_congr fun i => and_congr_right fun small => and_congr_right fun _ => ?_
      simp [small]
    refine ⟨if opens then 1 else 0, ?_, ?_, ?_⟩
    · have written : s.writeMask value =
          { s.toPart with hi := { s.hi with
              intMask := value.setWidth 3, interrupts := s.hi.interrupts + if opens then 1 else 0 } } := by
        simp only [Part.writeMask, Part.setEventMask]
        congr 2
        exact (apply_ite (s.hi.interrupts + ·) (opens = true) 1 0).symm
      exact congrArg s.become written
    · rintro (holds | masked)
      · simp [opens, (interruptCondition_iff s.toPart).2 holds]
      · have shut : interruptCondition s.hi.event (value.setWidth 3) = false := by
          rw [Bool.eq_false_iff, Ne, unmasked]
          rintro ⟨i, small, set, clear⟩
          simp [masked i small set] at clear
        simp [opens, shut]
    · intro closed opened
      rw [← interruptCondition_iff, Bool.not_eq_true] at closed
      simp [opens, closed, unmasked.2 opened]

end Sys2Proof.Machine

/-! PROOF. The rest of the host interface (R149, R181 to R193): the register window, the slots the host returns, the
end of a configuration read, timeouts, and the entry to FAULT from a failed access to a ring. -/

namespace Sys2Proof.Machine

/-! ## The register window (R181, R182) -/

/-- Settles O6: the three offsets with a row of their own apart, a write or a read goes by the offset's value. -/
theorem registerWindow : Obligations.RegisterWindow := by
  unfold Obligations.RegisterWindow
  refine ⟨fun s value => ⟨rfl, rfl, fun offset other => congrArg s.become ?_⟩, fun p => ⟨rfl, ?_, ?_, ?_, rfl, rfl,
    rfl, rfl, fun offset above => ?_⟩⟩
  · simp only [List.mem_cons, List.not_mem_nil, or_false, not_or, ← BitVec.toNat_inj] at other
    obtain ⟨control, event, mask, low, high, notify⟩ := other
    unfold Part.writeRegister
    split
    case h_7 => rfl
    all_goals contradiction
  · cases enable : p.hi.enable <;> simp [readRegister, enable, flagBit]
  · cases device : p.hi.deviceState <;> cases cause : p.hi.faultCause <;> 
      simp [readRegister, device, cause, DeviceState.code, FaultCause.code]
  · cases device : p.hi.deviceState <;> cases cause : p.hi.faultCause <;> 
      simp [readRegister, device, cause, DeviceState.code, FaultCause.code]
  · unfold readRegister
    split
    case h_8 => rfl
    all_goals omega

/-! ## Slots returned to the completion ring (R149) -/

section
variable {p : Part} {value : BitVec 32}

theorem Part.notify_completion (running : p.hi.deviceState = .running)
    (names : notifySelector value = .completion) : p.notify value = p.returnSlots (notifyCount value) := by
  simp only [Part.notify, Part.running, running, names, decide_true, Bool.not_true, Bool.false_eq_true, if_false]

theorem Part.returnSlots_of_fits {count : Nat} (some' : 1 ≤ count)
    (fits : p.cq.free + count ≤ p.hi.config.completion.length) :
    p.returnSlots count = { p with cq := { p.cq with free := p.cq.free + count } } := by
  simp [Part.returnSlots, some', fits]

theorem Part.returnSlots_of_rejected {count : Nat}
    (rejected : count = 0 ∨ p.hi.config.completion.length < p.cq.free + count) :
    p.returnSlots count = p.raise eventNotifyError := by
  refine if_neg ?_
  simp only [Bool.and_eq_true, decide_eq_true_eq]
  omega

end

/-- Settles O8: outside RUNNING the write is ignored; a return that the ring has room for is counted, and any other
raises EVENT.NOTIFY_ERROR. -/
theorem completionReturnEffect : Obligations.CompletionReturnEffect := by
  unfold Obligations.CompletionReturnEffect
  intro s value names
  have written : exec (.completionReturn value) s = s.become (s.notify value) := rfl
  rw [written]
  refine ⟨fun stopped => ?_, fun running some' fits => ?_, fun running rejected => ?_⟩
  · rw [Part.notify_of_not_running stopped]
  · rw [Part.notify_completion running names, Part.returnSlots_of_fits some' fits]
  · obtain ⟨n, atMostOne, raised⟩ := s.toPart.raise_eq eventNotifyError
    rw [Part.notify_completion running names, Part.returnSlots_of_rejected rejected, raised]
    exact ⟨n, atMostOne, rfl⟩

/-! ## The end of a configuration read (R185 to R187) -/

/-- The configuration read that ends while the part is LOADING. -/
theorem Part.configReadEnds_loading {p : Part} {a : Access} {result : ReadEnd}
    (inFlight : p.access? .configRead = some a) (loading : p.hi.deviceState = .loading)
    (answers : result.hasLength a.length = true) :
    p.configReadEnds result =
      if p.hi.loadAbandoned then (p.endAccess .configRead).abandonedLoadEnds
      else
        match (generalizing := false) result with
        | .failed => (p.endAccess .configRead).enterFault .configRead
        | .data block => (p.endAccess .configRead).checkConfig block :=
  Part.onReadEnd_delivered inFlight (readAnswers_of_hasLength answers) loading

/-- Settles O10: an abandoned load goes by ENABLE and then by the alignment of the new address, any other by the read's
end and the block's checks. -/
theorem configReadEndEffect : Obligations.ConfigReadEndEffect := by
  unfold Obligations.ConfigReadEndEffect
  intro s a result inFlight loading answers rest address
  have ends : exec (.configReadEnd result) s = s.become (s.configReadEnds result) := rfl
  let ended : Part := s.endAccess .configRead
  rw [ends, Part.configReadEnds_loading inFlight loading answers]
  refine ⟨fun abandoned disabled => ?_, fun abandoned enabled aligned => ?_, fun wanted block data valid => ?_,
    _, rfl, fun wanted failed => ?_, fun wanted block data invalid => ?_, fun abandoned enabled misaligned => ?_⟩
  · rw [if_pos abandoned]
    exact congrArg s.become (if_neg (by simpa [Part.endAccess] using disabled))
  · have again : ended.abandonedLoadEnds = ended.beginLoad := if_pos enabled
    rw [if_pos abandoned, again, Part.beginLoad_aligned (p := ended) aligned]
    simp only [ended, Part.endAccess, rest, address, ← loading]
  · subst data
    rw [if_neg (by simp [wanted])]
    exact congrArg s.become (if_pos valid : (s.endAccess .configRead).checkConfig block = _)
  · subst failed
    simp only [wanted, Bool.false_eq_true, if_false]
    exact ⟨rfl, rfl⟩
  · subst data
    simp only [wanted, Bool.false_eq_true, if_false, Part.checkConfig, invalid]
    exact ⟨rfl, rfl, rfl⟩
  · have again : ended.abandonedLoadEnds = ended.beginLoad := if_pos enabled
    rw [if_pos abandoned, again, Part.beginLoad_misaligned (p := ended) misaligned]
    exact ⟨rfl, rfl, rfl⟩

/-! ## Timeouts (R188, R193) -/

/-- The timeout of an access in flight has the effect of its failure, with its answer still to come. -/
theorem exec_timeout_live {s : State} {kind : AccessKind} {a : Access} (inFlight : s.access? kind = some a) :
    exec (.hostAccessTimeout (.live kind)) s = s.become ((s.expectLate a).accessFails kind) := by
  refine congrArg s.become ?_
  simp only [Part.accessTimesOut, inFlight]

/-- Settles O11: the timeout of a live access is `Part.accessFails` of its kind; everything else only edits the two
lists of accesses that no unit waits for. -/
theorem timeoutsAndStaleAccesses : Obligations.TimeoutsAndStaleAccesses := by
  unfold Obligations.TimeoutsAndStaleAccesses
  refine ⟨fun s kind a inFlight => ?_, fun s kind none => ?_, fun s k a => ⟨fun old => ?_, fun none => ?_⟩,
    fun s k result => ⟨?_, ?_⟩⟩
  · dsimp only
    rw [exec_timeout_live inFlight]
    refine ⟨?_, ?_, ?_, ?_, ?_, ?_, ?_, ?_⟩ <;> (intros; subst kind; rfl)
  · exact congrArg s.become (by simp only [Part.accessTimesOut, none])
  · refine congrArg s.become ?_
    simp only [Part.accessTimesOut, old, Part.oldAccessEnds, Part.expectLate, List.eraseIdx_eq_take_drop_succ]
  · exact congrArg s.become (by simp only [Part.accessTimesOut, none])
  · exact congrArg s.become (by simp only [Part.oldAccessEnds, List.eraseIdx_eq_take_drop_succ])
  · exact congrArg s.become (by simp only [Part.oldAccessEnds, List.eraseIdx_eq_take_drop_succ])

/-! ## The entry to FAULT (R189) -/

/-- The interrupt messages that the entry to FAULT sends: one where EVENT.FAULT opens the condition (R162). -/
def Part.faultMessages (p : Part) : Nat :=
  if !interruptCondition p.hi.event p.hi.intMask && interruptCondition (p.hi.event ||| 4) p.hi.intMask then 1 else 0

theorem Part.faultMessages_le (p : Part) : p.faultMessages ≤ 1 := by
  unfold Part.faultMessages; split <;> omega

/-- What the entry to FAULT writes (R45, R69, R163, R189, R190). -/
theorem Part.enterFault_eq (p : Part) (cause : FaultCause) : p.enterFault cause =
    { p with
      hi := { p.hi with
        deviceState := .fault, faultCause := cause, event := p.hi.event ||| 4
        interrupts := p.hi.interrupts + p.faultMessages }
      lk := { p.lk with
        state := .offline, helloDue := .none, helloTimer := .idle, holdoffTimer := .idle, teardown := none
        helloExit := none }
      sq := { p.sq with
        replayTimer := .idle, ackTimer := .idle, replay := [], next := 0, rewind := none, replayCount := 0
        slot := p.sq.slot.markDropped }
      cq := { p.cq with holdoffTimer := .idle }
      dl := { p.dl with rings := p.dl.rings.map fun r => { r with gapTimer := .idle } } } := by
  simp only [Part.enterFault, Part.raise, Part.setEventMask]
  congr 2
  exact (apply_ite (p.hi.interrupts + ·) _ 1 0).symm

theorem ReplaySlot.markDropped_eq (slot : ReplaySlot) : slot.markDropped =
    match slot with
    | .reading seq _ reads => .reading seq false reads
    | other => other := by
  cases slot <;> rfl

/-- An access that is answered in the device state its unit waits in is delivered there. -/
theorem Part.onAccessEnd_delivered {p : Part} {k : AccessKind} {a : Access} {st : DeviceState} {deliver : Part → Part}
    (inFlight : p.access? k = some a) (state : p.hi.deviceState = st) :
    p.onAccessEnd k st deliver = deliver (p.endAccess k) := by
  simp only [Part.onAccessEnd, inFlight, if_pos state]

section
variable {p : Part} {a : Access} (running : p.hi.deviceState = .running)
include running

theorem Part.ringReadEnds_failed {ring : RingId} (inFlight : p.access? (.ringRead ring) = some a) :
    p.ringReadEnds ring .failed = (p.endAccess (.ringRead ring)).enterFault .ringRead :=
  Part.onReadEnd_delivered inFlight rfl running

theorem Part.custodyWriteEnds_failed {ring : RingId} (inFlight : p.access? (.custodyWrite ring) = some a) :
    p.custodyWriteEnds ring false = (p.endAccess (.custodyWrite ring)).enterFault .custodyWrite :=
  Part.onAccessEnd_delivered inFlight running

theorem Part.completionWriteEnds_failed (inFlight : p.access? .completionWrite = some a) :
    p.completionWriteEnds false = (p.endAccess .completionWrite).enterFault .completionWrite :=
  Part.onAccessEnd_delivered inFlight running

end

/-- Settles O12: each of the three failures is `Part.enterFault` once its access has ended, and so is its timeout, with
the access listed as one whose answer may come late. -/
theorem deviceFaultEntry : Obligations.DeviceFaultEntry := by
  unfold Obligations.DeviceFaultEntry
  intro s running entered
  have onTime (kind : AccessKind) (cause : FaultCause) :
      (s.endAccess kind).enterFault cause = entered kind cause [] s.faultMessages := by
    simp only [Part.enterFault_eq, entered, ReplaySlot.markDropped_eq, List.append_nil]
    rfl
  have late (kind : AccessKind) (cause : FaultCause) (a : Access) :
      ((s.expectLate a).endAccess kind).enterFault cause = entered kind cause [a] s.faultMessages := by
    simp only [Part.enterFault_eq, entered, ReplaySlot.markDropped_eq]
    rfl
  refine ⟨fun ring a inFlight => ⟨_, s.faultMessages_le, ?_, ?_⟩, fun ring a inFlight => ⟨_, s.faultMessages_le, ?_, ?_⟩,
    fun a inFlight => ⟨_, s.faultMessages_le, ?_, ?_⟩⟩
  · exact congrArg s.become ((Part.ringReadEnds_failed running inFlight).trans (onTime _ _))
  · rw [exec_timeout_live inFlight]
    exact congrArg s.become ((Part.ringReadEnds_failed (p := s.expectLate a) running inFlight).trans (late _ _ a))
  · exact congrArg s.become ((Part.custodyWriteEnds_failed running inFlight).trans (onTime _ _))
  · rw [exec_timeout_live inFlight]
    exact congrArg s.become ((Part.custodyWriteEnds_failed (p := s.expectLate a) running inFlight).trans (late _ _ a))
  · exact congrArg s.become ((Part.completionWriteEnds_failed running inFlight).trans (onTime _ _))
  · rw [exec_timeout_live inFlight]
    exact congrArg s.become ((Part.completionWriteEnds_failed (p := s.expectLate a) running inFlight).trans (late _ _ a))

end Sys2Proof.Machine

/-! PROOF. The replay list as a run of numbers, and what keeps the invariant of R54 and R59: the operations of SQ, the
changes of the link's state, and the teardown. -/

namespace Sys2Proof.Machine

/-! ## Consecutive numbers -/

/-- A list is consecutive up to `next` if its numbers count up from `n` and `next` follows the last. -/
theorem consecutive_iff {n next : Seq} {l : List ReplayEntry} : Consecutive n next l ↔
    l.map ReplayEntry.seq = (List.range l.length).map (fun k => n + BitVec.ofNat 12 k)
      ∧ next = n + BitVec.ofNat 12 l.length := by
  induction l generalizing n with
  | nil => simp [Consecutive, eq_comm]
  | cons e l ih =>
    have shift (k : Nat) : n + 1#12 + BitVec.ofNat 12 k = n + BitVec.ofNat 12 (k + 1) := by
      rw [BitVec.ofNat_add, BitVec.add_assoc, BitVec.add_comm (BitVec.ofNat 12 k)]
    simp only [Consecutive, ih, List.map_cons, List.length_cons, List.range_succ_eq_map, List.map_map, shift,
      List.cons.injEq, Function.comp_def, and_assoc, Nat.succ_eq_add_one, BitVec.ofNat_eq_ofNat, BitVec.add_zero]

section
variable {n next w : Seq} {l : List ReplayEntry}

/-- The numbers on a consecutive list of at most 256 entries are those less than its length past the first. -/
theorem Consecutive.mem_iff (run : Consecutive n next l) (short : l.length ≤ 256) :
    (∃ e ∈ l, e.seq = w) ↔ (w - n).toNat < l.length := by
  have numbers := (consecutive_iff.1 run).1
  have listed : (∃ e ∈ l, e.seq = w) ↔ w ∈ l.map ReplayEntry.seq := List.mem_map.symm
  rw [listed, numbers, List.mem_map]
  constructor
  · rintro ⟨k, below, rfl⟩
    rw [List.mem_range] at below
    bv_omega
  · intro below
    exact ⟨(w - n).toNat, List.mem_range.2 below, by bv_omega⟩

theorem Consecutive.next_sub (run : Consecutive n next l) (short : l.length ≤ 256) :
    (next - n).toNat = l.length := by
  have follows := (consecutive_iff.1 run).2
  subst follows
  bv_omega

/-- A consecutive list begins with its first number, and an empty one is followed by it. -/
theorem Consecutive.head (run : Consecutive n next l) : (l.map ReplayEntry.seq).headD next = n := by
  cases l with
  | nil => exact (show n = next from run).symm
  | cons e l => exact run.1

theorem Consecutive.append (run : Consecutive n next l) (content : Content) :
    Consecutive n (next + 1) (l ++ [⟨next, content⟩]) := by
  induction l generalizing n with
  | nil => exact ⟨run.symm, by rw [show n = next from run]; rfl⟩
  | cons e l ih => exact ⟨run.1, ih run.2⟩

theorem Consecutive.drop (run : Consecutive n next l) {k : Nat} (within : k ≤ l.length) :
    Consecutive (n + BitVec.ofNat 12 k) next (l.drop k) := by
  induction l generalizing n k with
  | nil =>
    obtain rfl : k = 0 := Nat.le_zero.1 within
    simpa [Consecutive] using run
  | cons e l ih =>
    cases k with
    | zero => simpa using run
    | succ k =>
      have rest := ih run.2 (Nat.le_of_succ_le_succ within)
      have shift : n + 1 + BitVec.ofNat 12 k = n + BitVec.ofNat 12 (k + 1) := by
        rw [BitVec.ofNat_add, BitVec.add_assoc, BitVec.add_comm (BitVec.ofNat 12 k)]; rfl
      rwa [shift] at rest

end

/-! ## The invariant, and what it reads -/

/-- What the invariant of R54 reads of LK. -/
def Link.core (l : Link) : LinkState × Nat × Bool × Bool × Bool :=
  (l.state, l.window, l.helloExit.isSome, l.teardown.isSome, l.transmission.isSome)

/-- What the invariant of R54 reads of SQ. -/
def Sequencing.core (q : Sequencing) : List Seq × Seq × Option Seq × Timer :=
  (q.replay.map ReplayEntry.seq, q.next, q.rewind, q.replayTimer)

theorem Link.core_iff {l m : Link} : l.core = m.core ↔ l.state = m.state ∧ l.window = m.window
    ∧ l.helloExit.isSome = m.helloExit.isSome ∧ l.teardown.isSome = m.teardown.isSome
    ∧ l.transmission.isSome = m.transmission.isSome := by
  simp only [Link.core, Prod.mk.injEq]

theorem Sequencing.core_iff {q r : Sequencing} : q.core = r.core ↔
    q.replay.map ReplayEntry.seq = r.replay.map ReplayEntry.seq ∧ q.next = r.next ∧ q.rewind = r.rewind
      ∧ q.replayTimer = r.replayTimer := by
  simp only [Sequencing.core, Prod.mk.injEq]

theorem Sequencing.oldest_eq (q : Sequencing) : q.oldest = (q.replay.map ReplayEntry.seq).headD q.next := by
  unfold Sequencing.oldest
  split <;> rename_i h <;> simp [h]

section
variable {p q : Part}

/-- The invariant reads the cores alone. -/
theorem Part.SequencingOk.of_core (lk : q.lk.core = p.lk.core) (sq : q.sq.core = p.sq.core) (ok : p.SequencingOk) :
    q.SequencingOk := by
  obtain ⟨state, window, helloExit, teardown, transmission⟩ := Link.core_iff.1 lk
  obtain ⟨numbers, next, rewind, timer⟩ := Sequencing.core_iff.1 sq
  have length : q.sq.replay.length = p.sq.replay.length := by simpa using congrArg List.length numbers
  have empty : q.sq.replay = [] ↔ p.sq.replay = [] := by
    rw [← List.length_eq_zero_iff, ← List.length_eq_zero_iff, length]
  have oldest : q.sq.oldest = p.sq.oldest := by rw [Sequencing.oldest_eq, Sequencing.oldest_eq, numbers, next]
  have listed (n : Seq) : (∃ e ∈ q.sq.replay, e.seq = n) ↔ ∃ e ∈ p.sq.replay, e.seq = n := by
    rw [← List.mem_map, ← List.mem_map, numbers]
  unfold Part.SequencingOk
  rw [consecutive_iff, numbers, length, oldest, next, rewind, timer, state, window, helloExit, teardown, transmission]
  simp only [listed, empty]
  rwa [← consecutive_iff]

/-! ## The operations of SQ -/

theorem Part.SequencingOk.length_le (ok : p.SequencingOk) : p.sq.replay.length ≤ 256 :=
  Nat.le_trans ok.2.1 ok.1

@[simp] theorem Part.voidEntries_core (p : Part) (c : Fin 32) : (p.voidEntries c).sq.core = p.sq.core := by
  rw [Sequencing.core_iff]
  refine ⟨?_, rfl, rfl, rfl⟩
  simp only [Part.voidEntries, List.map_map]
  refine List.map_congr_left fun e _ => ?_
  simp only [Function.comp]
  split <;> rfl

theorem Part.SequencingOk.number (ok : p.SequencingOk) (up : p.lk.state = .up)
    (room : p.sq.replay.length < p.lk.window) (content : Content) : (p.number content).SequencingOk := by
  obtain ⟨window, -, run, rewind, timer, -, exit, teardown⟩ := ok
  refine ⟨window, ?_, ?_, fun n chosen => ?_, fun empty => ?_, fun down => absurd up down, exit, teardown⟩
  · have grown : (p.number content).sq.replay.length = p.sq.replay.length + 1 := by simp [Part.number]
    exact Nat.le_trans (Nat.le_of_eq grown) room
  · have oldest : (p.number content).sq.oldest = p.sq.oldest := by
      rw [Sequencing.oldest_eq, Sequencing.oldest_eq]
      cases h : p.sq.replay <;> simp [Part.number, h]
    rw [oldest]
    exact run.append content
  · obtain ⟨e, listed, numbered⟩ := rewind n chosen
    exact ⟨e, List.mem_append_left _ listed, numbered⟩
  · simp [Part.number] at empty

/-- A rewind position on the list. -/
theorem Part.SequencingOk.rewindTo (ok : p.SequencingOk) {n : Seq} (listed : ∃ e ∈ p.sq.replay, e.seq = n) :
    (p.rewindTo n).SequencingOk := by
  obtain ⟨window, short, run, -, timer, down, exit, teardown⟩ := ok
  refine ⟨window, short, run, fun m chosen => ?_, timer, down, exit, teardown⟩
  obtain rfl : n = m := Option.some.inj chosen
  exact listed

/-- The position after an entry that is sent again is on the list, or there is none. -/
theorem Part.SequencingOk.rewindAfter (ok : p.SequencingOk) {n m : Seq} (listed : ∃ e ∈ p.sq.replay, e.seq = n)
    (after : p.sq.rewindAfter n = some m) : ∃ e ∈ p.sq.replay, e.seq = m := by
  have short := ok.length_le
  have run := ok.2.2.1
  rw [run.mem_iff short] at listed ⊢
  have length := run.next_sub short
  unfold Sequencing.rewindAfter at after
  split at after
  · cases after
  · obtain rfl := Option.some.inj after
    rename_i last
    bv_omega

/-- An acknowledgement within the list leaves its newer part, which begins with the acknowledged number. -/
theorem Part.SequencingOk.removeBefore (ok : p.SequencingOk) {n : Seq} (within : p.sq.within n = true) :
    (p.removeBefore n).SequencingOk
      ∧ (n ≠ (p.removeBefore n).sq.next → ∃ e ∈ (p.removeBefore n).sq.replay, e.seq = n) := by
  have short := ok.length_le
  obtain ⟨window, room, run, rewind, timer, down, exit, teardown⟩ := ok
  have length := run.next_sub short
  rw [Sequencing.within_iff, length] at within
  have listed {w : Seq} := run.mem_iff (w := w) short
  unfold Part.removeBefore
  split
  · rename_i none'
    refine ⟨⟨window, room, run, rewind, timer, down, exit, teardown⟩, fun other => ?_⟩
    rw [listed]
    have first : (n - p.sq.oldest).toNat = 0 ∨ p.sq.replay = [] := by
      simpa [Sequencing.before, forward] using none'
    rcases first with first | empty
    · refine Classical.byContradiction fun full => ?_
      have follows : n = p.sq.next := by bv_omega
      exact other follows
    · simp only [empty, List.length_nil] at within length
      have follows : n = p.sq.next := by bv_omega
      exact absurd follows other
  · have rest := run.drop within
    have start : p.sq.oldest + BitVec.ofNat 12 (n - p.sq.oldest).toNat = n := by
      rw [BitVec.ofNat_toNat, BitVec.setWidth_eq]; bv_omega
    rw [start] at rest
    have shorter : (p.sq.replay.drop (n - p.sq.oldest).toNat).length ≤ 256 := by rw [List.length_drop]; omega
    have kept {w : Seq} := rest.mem_iff (w := w) shorter
    have remains := rest.next_sub shorter
    rw [List.length_drop] at kept remains
    refine ⟨⟨window, ?_, ?_, fun w chosen => ?_, fun empty => ?_, fun notUp => ?_, exit, teardown⟩, fun other => ?_⟩
    · rw [List.length_drop]; exact Nat.le_trans (Nat.sub_le ..) room
    · rw [Sequencing.oldest_eq]
      exact rest.head.symm ▸ rest
    · dsimp only at chosen ⊢
      split at chosen
      · cases chosen
      · rename_i old before
        obtain below := listed.1 (rewind old before)
        split at chosen
        · cases chosen
        · rename_i some'
          rw [List.isEmpty_iff, List.drop_eq_nil_iff] at some'
          rw [show forward p.sq.oldest n = (n - p.sq.oldest).toNat from rfl] at some'
          refine kept.2 ?_
          split at chosen
          · obtain rfl := Option.some.inj chosen
            bv_omega
          · rename_i ahead
            obtain rfl := Option.some.inj chosen
            unfold forward at ahead
            bv_omega
    · exact if_pos (List.isEmpty_iff.2 empty)
    · obtain ⟨empty, zero⟩ := down notUp
      exact ⟨by simp [empty], zero⟩
    · refine kept.2 ?_
      have differs : n ≠ p.sq.next := other
      bv_omega

/-! ## The link -/

/-- Nothing listed and nothing waiting: what every entry to a state other than UP, and the entry to UP, leave. -/
theorem Part.SequencingOk.empty (window : p.lk.window ≤ 256) (replay : p.sq.replay = []) (next : p.sq.next = 0)
    (rewind : p.sq.rewind = none) (timer : p.sq.replayTimer = .idle) (exit : p.lk.helloExit = none)
    (teardown : p.lk.teardown = none) : p.SequencingOk := by
  refine ⟨window, ?_, ?_, ?_, fun _ => timer, fun _ => ⟨replay, next⟩, ?_, ?_⟩
  · simp [replay]
  · simp [Sequencing.oldest, replay, Consecutive]
  · simp [rewind]
  · simp [exit]
  · simp [teardown]

/-- Outside UP the link may go from state to state, with nothing listed. -/
theorem Part.SequencingOk.enter (ok : p.SequencingOk) (down : p.lk.state ≠ .up) (sq : q.sq = p.sq)
    (window : q.lk.window = p.lk.window) (teardown : q.lk.teardown = p.lk.teardown)
    (exit : q.lk.helloExit.isSome → q.lk.state = .hello) : q.SequencingOk := by
  obtain ⟨bound, short, run, rewind, timer, empty, -, pending⟩ := ok
  have none' : p.lk.teardown.isSome = false := by
    rw [Bool.eq_false_iff]
    exact fun some' => down (pending some').1
  refine ⟨window ▸ bound, ?_, sq ▸ run, sq ▸ rewind, sq ▸ timer, fun _ => sq ▸ empty down, exit, ?_⟩
  · rw [sq, window]; exact short
  · rw [teardown, none']; exact nofun

/-- LK changes what the invariant does not read, or begins a transmission. -/
theorem Part.SequencingOk.transmits (ok : p.SequencingOk) (sq : q.sq.core = p.sq.core) (state : q.lk.state = p.lk.state)
    (window : q.lk.window = p.lk.window) (exit : q.lk.helloExit = p.lk.helloExit)
    (teardown : q.lk.teardown = p.lk.teardown) (busy : q.lk.transmission.isSome) : q.SequencingOk := by
  refine Part.SequencingOk.of_core (p := { p with lk := { p.lk with transmission := q.lk.transmission } }) ?_ sq ?_
  · simp [Link.core, state, window, exit, teardown]
  · obtain ⟨bound, short, run, rewind, timer, empty, hello, pending⟩ := ok
    exact ⟨bound, short, run, rewind, timer, empty, hello, fun some' => ⟨(pending some').1, busy⟩⟩

theorem Part.enterOffline_lk (p : Part) : p.enterOffline.lk = { p.lk with
    state := .offline, helloDue := .none, helloTimer := .idle, holdoffTimer := .idle, helloExit := none } := by
  unfold Part.enterOffline
  dsimp only
  split <;> rfl

/-- The state that a teardown leaves the link in. -/
theorem Part.afterTeardown_lk (p : Part) (t : Teardown) : (p.afterTeardown t).lk.window = p.lk.window
    ∧ (p.afterTeardown t).lk.teardown = p.lk.teardown
    ∧ (p.lk.helloExit = none → (p.afterTeardown t).lk.helloExit = none) := by
  unfold Part.afterTeardown
  split
  · rw [Part.enterOffline_lk]; exact ⟨rfl, rfl, fun _ => rfl⟩
  · split
    · exact ⟨rfl, rfl, id⟩
    · split
      · exact ⟨rfl, rfl, fun _ => rfl⟩
      · split <;> exact ⟨rfl, rfl, fun _ => rfl⟩

/-- A teardown that is applied leaves nothing listed and nothing waiting. -/
theorem Part.applyTeardown_line {t : Teardown} (pending : p.lk.teardown = some t) (free : p.lk.transmission = none)
    (window : p.lk.window ≤ 256) (exit : p.lk.helloExit = none) : p.applyTeardown.SequencingOk := by
  unfold Part.applyTeardown
  rw [pending, free]
  dsimp only
  obtain ⟨sameWindow, sameTeardown, sameExit⟩ := Part.afterTeardown_lk { p.teardownUnits with
    lk := { p.teardownUnits.lk with
      teardown := none, helloDue := .none, peerEpoch := 0, eventFlag := true, latestCause := t.cause
      transitions := countUp 255 p.teardownUnits.lk.transitions } } t
  refine .empty ?_ ?_ ?_ ?_ ?_ (sameExit ?_) sameTeardown
  · rw [sameWindow]; simpa using window
  all_goals simp [Part.teardownUnits, Part.teardownSequencing, exit]

theorem Part.SequencingOk.beginTeardown (ok : p.SequencingOk) (cause : LinkCause) (kept : Option HelloParcel) :
    (p.beginTeardown cause kept).SequencingOk := by
  unfold Part.beginTeardown
  split
  · rename_i up
    simp only [Bool.and_eq_true, decide_eq_true_eq] at up
    have exit : p.lk.helloExit = none := by
      refine Option.not_isSome_iff_eq_none.1 fun some' => ?_
      have hello := ok.2.2.2.2.2.2.1 some'
      rw [up.1] at hello
      cases hello
    cases free : p.lk.transmission with
    | none => exact Part.applyTeardown_line rfl free ok.1 exit
    | some parcel =>
      unfold Part.applyTeardown
      simp only [free]
      obtain ⟨bound, short, run, rewind, timer, empty, hello, -⟩ := ok
      exact ⟨bound, short, run, rewind, timer, empty, hello, fun _ => ⟨up.1, rfl⟩⟩
  · exact ok

/-- Where the invariant holds, a pending teardown waits for the framer, so none is applied. -/
theorem Part.SequencingOk.applyTeardown (ok : p.SequencingOk) : p.applyTeardown = p := by
  unfold Part.applyTeardown
  split
  · rename_i pending free
    have busy := (ok.2.2.2.2.2.2.2 (by rw [pending]; rfl)).2
    rw [free] at busy
    cases busy
  · rfl

/-- The link's entry to UP (R37) leaves nothing listed and nothing waiting. -/
theorem Part.SequencingOk.enterUp (ok : p.SequencingOk) (hello : p.lk.state = .hello) (exit : p.lk.helloExit = none)
    (window : p.lk.peerWindow ≤ 256) : p.enterUp.SequencingOk := by
  have none' : p.lk.teardown = none := by
    refine Option.not_isSome_iff_eq_none.1 fun some' => ?_
    have up := (ok.2.2.2.2.2.2.2 some').1
    rw [hello] at up
    cases up
  exact .empty (Nat.le_trans (Nat.min_le_right ..) window) rfl rfl rfl rfl exit none'

end

end Sys2Proof.Machine

/-! PROOF. What a command can do to the control queue, the stream accounts, the sequencing and the completion unit: a
short list of moves, and every command as a chain of them. The invariants of R23, R54, R71, R81 and R146 are then one case
split over the moves each. -/

namespace Sys2Proof.Machine

/-! ## What the invariants read -/

/-- What the invariants of R71 and R81 read of a stream's entry: state, allotment, credits, peer allotment, offer. -/
def StreamEntry.account (e : StreamEntry) : StreamState × Nat × Nat × Nat × Option Offer :=
  (e.state, e.allotment, e.credits, e.peerAllotment, e.offer)

/-- HI but for its lists of accesses. -/
def HostInterface.face (h : HostInterface) : HostInterface := { h with accesses := [], stale := [], timedOut := [] }

/-- Two parts that agree in all that the invariants of R23, R71, R81 and R146 read, the second of which meets the
invariant of R54 if the first does. -/
structure Part.Same (p q : Part) : Prop where
  control : q.control = p.control
  accounts : ∀ i, (q.stream i).account = (p.stream i).account
  reserved : q.ib.reservedTotal = p.ib.reservedTotal
  list : q.cq.list = p.cq.list
  free : q.cq.free = p.cq.free
  serial : q.cq.serial = p.cq.serial
  face : q.hi.face = p.hi.face
  line : p.SequencingOk → q.SequencingOk

/-- Two parts with one control queue, one stream table, one reserved total, one list, one free count, one serial and one
HI but for the accesses. -/
@[simp] def Part.Frame (p q : Part) : Prop :=
  q.control = p.control ∧ q.streams = p.streams
    ∧ q.ib.reservedTotal = p.ib.reservedTotal ∧ q.cq.list = p.cq.list ∧ q.cq.free = p.cq.free
    ∧ q.cq.serial = p.cq.serial ∧ q.hi.face = p.hi.face

/-- Two parts in one frame agree in the accounts. -/
theorem Part.Same.of_line {p q : Part} (frame : p.Frame q) (line : p.SequencingOk → q.SequencingOk) : p.Same q := by
  obtain ⟨control, streams, reserved, list, free, serial, face⟩ := frame
  exact ⟨control, fun i => by rw [Part.stream, streams, Part.stream], reserved, list, free, serial, face, line⟩

/-- What the invariant of R54 reads does not change. -/
@[simp] def Part.Still (p q : Part) : Prop := q.lk.core = p.lk.core ∧ q.sq.core = p.sq.core

theorem Part.Same.of_frame {p q : Part} (frame : p.Frame q) (still : p.Still q) : p.Same q :=
  .of_line frame (Part.SequencingOk.of_core still.1 still.2)

/-- The moves out of which every command's effect on these units is made. -/
inductive Move : Part → Part → Prop
  /-- Nothing that the invariants read changes. -/
  | same {p q} : p.Same q → Move p q
  /-- SC tests a stream's exit (R18, R19). -/
  | exit (p i) : Move p (p.exitTest i)
  /-- Requests to the control queue (R24, R25), and entries that leave it (R14, R110). -/
  | grant (p : Part) (i a c m) : Move p (p.queueGrant i a c m)
  | withdraw (p : Part) (i) : Move p (p.queueWithdraw i)
  | cut (p : Part) (i) : Move p (p.queueCut i)
  | leave {p : Part} {l} : l.Sublist p.control → Move p { p with control := l }
  /-- A STREAM_OPEN that has passed its checks (R170, R72). -/
  | opens {p : Part} {i} (s r a b m) : (p.stream i).state = .closed ∨ (p.stream i).state = .offered →
      p.ib.reservedTotal + a ≤ 512 → Move p (p.openStream i s r a b m)
  /-- An accepted GRANT (R6 to R8). -/
  | heard (p : Part) (i g) : Move p (p.takeGrant i g)
  /-- A stream starts winding (R9, R10); a pending offer is discarded (R11); a credit is spent (R81). -/
  | winds (p : Part) (i) : Move p (p.modStream i StreamEntry.wind)
  | forgets (p : Part) (i) : Move p (p.modStream i fun e => { e with offer := none, withdrawSequenced := false })
  | spends (p : Part) (i) : Move p (p.modStream i fun e => { e with credits := e.credits - 1 })
  /-- The closes of R13 to R16. -/
  | declines {p : Part} {i} : (p.stream i).state = .offered → Move p (p.startClosing i)
  | closes (p : Part) (i) : Move p (((p.startClosing i).discardQueue i).release i)
  | releases (p : Part) (i) : Move p (p.release i)
  | waits {p : Part} {i} : (p.stream i).state = .disrupted → Move p (p.modStream i fun e =>
      { e with state := .closing, peerWithdrawSeen := true, closeWaiting := true, withdrawSequenced := false })
  | drops {p : Part} {i} : (p.stream i).state = .disrupted → Move p (p.modStream i StreamEntry.leave)
  | cancels (p : Part) (i) : Move p (((p.removeGrant i).release i).modStream i StreamEntry.cleared)
  /-- A teardown is applied (R20, R25, R73): at once, or with the end of the transmission it waits for. -/
  | tears (p) : Move p p.applyTeardown
  | begins (p cause kept) : Move p (p.beginTeardown cause kept)
  | ends {p : Part} : p.lk.teardown.isSome → Move p (Part.applyTeardown { p with lk := { p.lk with transmission := none } })
  /-- CQ writes a record or lists it (R147, R155, R157), and the host returns slots (R149). -/
  | writes (p : Part) (record) : Move p (p.beginWrite record)
  | lists {p : Part} (record) : p.cq.list.length < 32 → Move p { p with cq := { p.cq with list := p.cq.list ++ [record] } }
  | unlists {p : Part} {first rest} (more : List Record) : p.cq.list = first :: rest → more.length ≤ 1 →
      Move p { p with cq := { p.cq with list := rest ++ more } }
  | returns {p : Part} {n} : p.cq.free + n ≤ p.hi.config.completion.length →
      Move p { p with cq := { p.cq with free := p.cq.free + n } }

/-- What a command does to HI, where it does anything to it; such a command does nothing after it. -/
inductive Loud : Part → Part → Prop
  /-- EVENT and INT_MASK take new values (R161, R162), or the configuration address does (R182). -/
  | signals (p : Part) (event mask) : Loud p (p.setEventMask event mask)
  | addresses (p : Part) (lo hi) : Loud p { p with hi := { p.hi with configLo := lo, configHi := hi } }
  /-- A failed access takes the part to FAULT (R186, R189). -/
  | faults {p : Part} (cause) : p.hi.deviceState = .running ∨ p.hi.deviceState = .loading → Loud p (p.enterFault cause)
  /-- A load begins, is abandoned, ends so, or ends in RUNNING (R185 to R187). -/
  | begins {p : Part} : p.hi.deviceState = .disabled ∨ p.hi.deviceState = .loading →
      Loud p (Part.beginLoad { p with hi := { p.hi with enable := true } })
  | abandons {p : Part} : p.hi.deviceState = .loading →
      Loud p { p with hi := { p.hi with enable := false, loadAbandoned := true } }
  | disables {p : Part} : p.hi.deviceState = .loading → p.hi.enable = false →
      Loud p { p with hi := { p.hi with deviceState := .disabled } }
  | loads {p : Part} (config : ConfigCopy) : p.hi.deviceState = .loading → p.hi.loadAbandoned = false →
      config.valid = true → Loud p { p with
        hi := { p.hi with deviceState := .running, config := config }
        cq := { p.cq with free := config.completion.length } }
  /-- ENABLE alone changes (R183). -/
  | enables {p : Part} (enable) : (p.hi.deviceState = .disabled → enable = false) →
      (p.hi.deviceState = .loading → enable = true) → (p.hi.deviceState = .running → enable = true) →
      Loud p { p with hi := { p.hi with enable := enable } }
  /-- A function reset (R192). -/
  | resets (p : Part) : Loud p p.functionReset

/-- A chain of moves. -/
inductive Part.Reach : Part → Part → Prop where
  | refl (p : Part) : Part.Reach p p
  | tail {p q r : Part} : Part.Reach p q → Move q r → Part.Reach p r

/-- The effect of a command other than a power-on reset: a chain of moves, and perhaps a change of HI at its end. -/
def Part.Does (p q : Part) : Prop := p.Reach q ∨ ∃ m, p.Reach m ∧ Loud m q

/-- What every move keeps, a chain of moves keeps. -/
theorem Part.Reach.keeps {I : Part → Prop} (kept : ∀ {p q}, Move p q → I p → I q) {p q : Part} (chain : p.Reach q)
    (holds : I p) : I q := by
  induction chain with
  | refl => exact holds
  | tail _ move ih => exact kept move ih

section
variable {p q r : Part}

theorem Part.Reach.trans (first : p.Reach q) (then' : q.Reach r) : p.Reach r := by
  induction then' with
  | refl => exact first
  | tail _ move ih => exact ih.tail move

theorem Move.reach (move : Move p q) : p.Reach q := .tail (.refl p) move
theorem Part.Same.reach (same : p.Same q) : p.Reach q := (Move.same same).reach

theorem Part.Reach.does (chain : p.Reach q) : p.Does q := .inl chain
theorem Loud.does (loud : Loud p q) : p.Does q := .inr ⟨p, .refl p, loud⟩

/-- A chain of moves, and then what a command does. -/
theorem Part.Does.after (chain : p.Reach q) (does : q.Does r) : p.Does r := by
  rcases does with rest | ⟨m, rest, loud⟩
  · exact .inl (chain.trans rest)
  · exact .inr ⟨m, chain.trans rest, loud⟩

theorem Part.Does.of_ite {c : Prop} [Decidable c] {a b : Part} (yes : c → p.Does a) (no : ¬c → p.Does b) :
    p.Does (if c then a else b) := by
  split
  · exact yes ‹_›
  · exact no ‹_›

theorem Part.Reach.of_line (frame : p.Frame q) (line : p.SequencingOk → q.SequencingOk) : p.Reach q :=
  (Part.Same.of_line frame line).reach

theorem Part.Reach.of_frame (frame : p.Frame q) (still : p.Still q) : p.Reach q := (Part.Same.of_frame frame still).reach

/-- What follows a chain's last move, by a chain from there. -/
theorem Part.Reach.of_ite {c : Prop} [Decidable c] {a b : Part} (yes : c → p.Reach a) (no : ¬c → p.Reach b) :
    p.Reach (if c then a else b) := by
  split
  · exact yes ‹_›
  · exact no ‹_›

/-! ## Operations that move nothing -/

variable (p)

/-- A change of an entry that keeps its account. -/
theorem Part.modStream_same {i : Fin 64} {f : StreamEntry → StreamEntry} (keeps : ∀ e, (f e).account = e.account) :
    p.Same (p.modStream i f) := by
  refine ⟨rfl, fun j => ?_, rfl, rfl, rfl, rfl, rfl, id⟩
  by_cases here : j = i
  · subst here; rw [Part.stream_modStream_self]; exact keeps _
  · rw [Part.stream_modStream_of_ne _ _ here]

theorem Part.modStream_reach {i : Fin 64} {f : StreamEntry → StreamEntry} (keeps : ∀ e, (f e).account = e.account) :
    p.Reach (p.modStream i f) := (p.modStream_same keeps).reach

theorem Part.modLandRing_same (r : Fin 8) (f : LandingRing → LandingRing) : p.Same (p.modLandRing r f) :=
  .of_frame (by simp) (by simp)

theorem Part.setMode_reach (i : Fin 64) (mode : Mode) : p.Reach (p.setMode i mode) :=
  p.modStream_reach (by intro; rfl)

theorem Part.streamProtocolError_same (i : Fin 64) (cause : ProtocolCause) :
    p.Same (p.streamProtocolError i cause) := by
  have accounts := (p.modStream_same (i := i) (f := fun e =>
    { e with protocolFlag := true, protocolCause := cause, protocolCount := countUp 255 e.protocolCount })
    fun _ => rfl).accounts
  exact ⟨rfl, accounts, rfl, rfl, rfl, rfl, rfl, Part.SequencingOk.of_core rfl rfl⟩

theorem Part.streamProtocolError_reach (i : Fin 64) (cause : ProtocolCause) :
    p.Reach (p.streamProtocolError i cause) := (p.streamProtocolError_same i cause).reach

theorem Part.endMessage_reach (i : Fin 64) (status : Status) (mode : Mode) : p.Reach (p.endMessage i status mode) :=
  Part.Reach.trans (q := p.postMessage (p.stream i).landingRing ((p.stream i).messageCompletion i status))
    (Part.Reach.of_frame (by simp) (by simp)) (Part.modStream_reach _ (by intro; rfl))

theorem Part.issueAll_reach (as : List Access) : p.Reach (p.issueAll as) := Part.Reach.of_frame (by simp; rfl) (by simp)
theorem Part.issue_reach (a : Access) : p.Reach (p.issue a) := Part.Reach.of_frame (by simp; rfl) (by simp)
theorem Part.endAccess_reach (k : AccessKind) : p.Reach (p.endAccess k) := Part.Reach.of_frame (by simp; rfl) (by simp)
theorem Part.askClaim_reach (i : Fin 64) : p.Reach (p.askClaim i) := Part.Reach.of_frame (by simp) (by simp)
theorem Part.passClaim_reach (r : Fin 8) : p.Reach (p.passClaim r) := Part.Reach.of_frame (by simp) (by simp)
theorem Part.refreshRing_reach (r : Fin 8) : p.Reach (p.refreshRing r) := Part.Reach.of_frame (by simp) (by simp)

/-- A change of a ring's state in DL, the claim asked for, and what follows at the ring. -/
theorem Part.giveUpClaim_reach (r : Fin 8) (i : Fin 64) : p.Reach (p.giveUpClaim r i) :=
  (p.modLandRing_same r _).reach.trans <| (Part.passClaim_reach _ r).trans <| (Move.exit _ i).reach.trans <|
    (Part.askClaim_reach _ i).trans (Part.refreshRing_reach _ r)

theorem Part.place_reach (r : Fin 8) : p.Reach (p.place r) := by
  unfold Part.place
  dsimp only
  split
  · exact .refl p
  · exact (p.modLandRing_same r _).reach.trans <|
      (Part.modStream_reach _ (by intro; rfl)).trans (Part.issueAll_reach _ _)

/-- A message ends, and what follows at its ring. -/
theorem Part.endMessage_refresh_reach (i : Fin 64) (status : Status) (mode : Mode) (r : Fin 8) :
    p.Reach ((p.endMessage i status mode).refreshRing r) :=
  (p.endMessage_reach i status mode).trans (Part.refreshRing_reach _ r)

/-- A completion is posted, its stream asks for the claim again, and what follows at the ring. -/
theorem Part.postMessage_ask_reach (r : Fin 8) (m : MessageCompletion) (i : Fin 64) :
    p.Reach (((p.postMessage r m).askClaim i).refreshRing r) := Part.Reach.of_frame (by simp) (by simp)

theorem Part.endLanding_reach (r : Fin 8) : p.Reach (p.endLanding r) := by
  unfold Part.endLanding
  split
  · exact .refl p
  · rename_i l _
    dsimp only
    split
    · exact .refl p
    · refine (p.modLandRing_same r fun g => { g with landing := none }).reach.trans ?_
      split
      · exact Part.postMessage_ask_reach ..
      · split
        · refine Part.Reach.trans (Part.modStream_reach (i := l.stream) (f := fun e =>
            { e with reassembly := { e.reassembly with bytesSoFar := e.reassembly.bytesSoFar + l.payload.length } })
            _ fun _ => rfl) ?_
          split
          · exact Part.endMessage_refresh_reach ..
          · split
            · exact Part.endMessage_refresh_reach ..
            · exact Part.refreshRing_reach ..
        all_goals exact Part.endMessage_refresh_reach ..

theorem Part.landingWriteEnd_reach (r : Fin 8) (k : Nat) (ok : Bool) : p.Reach (p.landingWriteEnd r k ok) :=
  (p.modLandRing_same r _).reach.trans (Part.endLanding_reach _ r)

theorem Part.gapExpiry_reach (r : Fin 8) : p.Reach (p.gapExpiry r) := by
  unfold Part.gapExpiry
  dsimp only
  split
  · exact .refl p
  · refine (p.modLandRing_same r fun g => { g with gapTimer := .idle }).reach.trans ?_
    split
    · exact .refl _
    · exact Part.endMessage_refresh_reach ..

/-! ## Delivery -/

theorem Part.queueReturnGrant_reach (i : Fin 64) (n : Nat) : p.Reach (p.queueReturnGrant i n) :=
  .of_ite (fun _ => (Move.grant ..).reach) fun _ => .refl p

/-- A slot is freed and counted for the stream; nothing else changes. -/
theorem Part.slotFreed_reach (i : Fin 64) : p.Reach
    (Part.modStream { p with ib := { p.ib with freeCount := p.ib.freeCount + 1 } } i fun e =>
      { e with occupancy := e.occupancy - 1 }) :=
  Part.Reach.trans (q := { p with ib := { p.ib with freeCount := p.ib.freeCount + 1 } })
    (Part.Reach.of_frame (by simp) (by simp))
    (Part.modStream_reach _ fun _ => rfl)

theorem Part.freeSlot_reach (i : Fin 64) : p.Reach (p.freeSlot i) := by
  refine (p.slotFreed_reach i).trans ?_
  unfold Part.freeSlot
  dsimp only
  split
  · exact .refl _
  · split
    · refine Part.Reach.trans ?_ (Part.queueReturnGrant_reach _ i _)
      exact Part.modStream_reach _ (by intro; rfl)
    · exact Part.modStream_reach _ (by intro; rfl)

theorem Part.removeHead_reach (i : Fin 64) : p.Reach (p.removeHead i) := Part.Reach.of_frame (by simp; rfl) (by simp)

theorem Part.takeData_reach (i : Fin 64) : p.Reach (p.takeData i) :=
  (p.removeHead_reach i).trans (Part.freeSlot_reach _ i)

theorem Part.land_reach (i : Fin 64) (d : StoredData) : p.Reach (p.land i d) :=
  (p.modStream_reach (by intro; rfl)).trans <| (Part.modLandRing_same _ _ _).reach.trans (Part.place_reach _ _)

theorem Part.serveData_reach (i : Fin 64) (d : StoredData) : p.Reach (p.serveData i d) := by
  have taken := p.takeData_reach i
  unfold Part.serveData
  dsimp only
  split
  · split
    · exact p.endMessage_reach ..
    · split
      · exact taken.trans (Part.endMessage_reach ..)
      · split
        · exact taken.trans (Part.endMessage_reach ..)
        · exact taken.trans (Part.land_reach ..)
  · split
    · exact taken.trans (Part.setMode_reach ..)
    · refine taken.trans (Part.Reach.trans ?_ (Part.land_reach ..))
      exact Part.modStream_reach _ (by intro; rfl)

theorem Part.serveCut_reach (i : Fin 64) : p.Reach (p.serveCut i) := by
  refine (p.removeHead_reach i).trans ?_
  unfold Part.serveCut
  dsimp only
  split
  · exact Part.endMessage_reach ..
  · exact Part.setMode_reach ..

theorem Part.markerReported_reach (i : Fin 64) : p.Reach (p.markerReported i) := by
  unfold Part.markerReported
  split
  · exact Part.Reach.trans (Part.modStream_reach _ (by intro; rfl)) (Move.exit _ i).reach
  · exact .refl p

theorem Part.serveWithdraw_reach (i : Fin 64) : p.Reach (p.serveWithdraw i) := by
  refine (p.removeHead_reach i).trans ?_
  unfold Part.serveWithdraw
  dsimp only
  split
  · exact Part.endMessage_reach ..
  · exact (Part.setMode_reach ..).trans (Part.markerReported_reach _ i)

theorem Part.deliver_reach : p.Reach p.deliver := by
  unfold Part.deliver
  split
  · exact .refl p
  · rename_i i _
    refine Part.Reach.trans (q := { p with dl := { p.dl with pointer := i } }) (Part.Reach.of_frame (by simp) (by simp)) ?_
    refine Part.Reach.trans ?_ ((Part.askClaim_reach _ i).trans (Part.refreshRing_reach _ _))
    dsimp only
    split
    · exact Part.serveData_reach ..
    · exact Part.serveCut_reach ..
    · exact Part.serveWithdraw_reach ..
    · exact .refl _

theorem Part.takeLandingRecord_reach (r : Fin 8) (slot : Nat) (address : Addr) (length : Nat) :
    p.Reach (p.takeLandingRecord r slot address length) := by
  unfold Part.takeLandingRecord
  dsimp only
  split
  · refine Part.Reach.trans ?_ (Part.refreshRing_reach _ r)
    split
    · exact (p.modLandRing_same r _).reach.trans (Part.place_reach _ r)
    · exact (p.modLandRing_same r _).reach
  · exact Part.Reach.of_frame (by simp) (by simp)

theorem Part.closeDelivery_reach (i : Fin 64) : p.Reach (p.closeDelivery i) := by
  have left := (p.modLandRing_same (p.stream i).landingRing fun g =>
    { g with claimQueue := g.claimQueue.filter fun j => decide (j ≠ i) }).reach
  unfold Part.closeDelivery
  dsimp only
  refine Part.Reach.trans ?_ ((Move.exit _ i).reach.trans (Part.refreshRing_reach _ _))
  split
  · exact left
  · refine left.trans ?_
    split
    · split
      · exact (Part.modLandRing_same _ _ _).reach.trans (Part.endLanding_reach ..)
      · exact .refl _
    · split
      · exact Part.endMessage_reach ..
      · exact (Part.setMode_reach _ i .idle).trans
          ((Part.modLandRing_same _ _ _).reach.trans (Part.passClaim_reach ..))

end

end Sys2Proof.Machine

/-! PROOF. Every command is a chain of moves: the completion unit, the sending side, the commands of the command ring,
the arrivals, and then the rows of the table. -/

namespace Sys2Proof.Machine

section
variable (p : Part)

/-! ## Completions -/

theorem Part.messageTaken_reach (r : Fin 8) (m : MessageCompletion) : p.Reach (p.messageTaken r m) := by
  refine (p.modLandRing_same r fun g => { g with waiting := none }).reach.trans ?_
  unfold Part.messageTaken
  dsimp only
  split
  · refine Part.Reach.trans ?_ (Part.giveUpClaim_reach _ r m.stream)
    refine Part.Reach.trans (q := if ((p.modLandRing r fun g => { g with waiting := none }).stream m.stream).closedByHost
      then (p.modLandRing r fun g => { g with waiting := none }).setMode m.stream .idle
      else p.modLandRing r fun g => { g with waiting := none }) ?_ ?_
    · exact .of_ite (fun _ => Part.setMode_reach ..) fun _ => .refl _
    · exact .of_ite (fun _ => Part.modStream_reach _ (by intro; rfl)) fun _ => .refl _
  · exact (Part.passClaim_reach _ r).trans (Part.refreshRing_reach _ r)

theorem Part.released_reach (who : Producer) : p.Reach (p.released who) := by
  cases who with
  | cm =>
    simp only [Part.released]
    exact Part.Reach.of_frame (by simp) (by simp)
  | sf =>
    simp only [Part.released]
    split
    · exact .refl p
    · exact Part.Reach.of_frame (by simp) (by simp)
  | dl =>
    simp only [Part.released]
    split
    · exact .refl p
    · rename_i r m rest _
      exact Part.Reach.trans (q := { p with dl := { p.dl with line := rest } }) (Part.Reach.of_frame (by simp) (by simp))
        (Part.messageTaken_reach ..)
    · rename_i r slot length rest _
      exact Part.Reach.trans (q := { p with dl := { p.dl with line := rest } }) (Part.Reach.of_frame (by simp) (by simp))
        (Part.modLandRing_same ..).reach

/-- CQ takes an offer while it has room for one (R155, R156). -/
theorem Part.take_reach (who : Producer) (room : p.straight = true ∨ p.listRoom = true) : p.Reach (p.take who) := by
  unfold Part.take
  split
  · exact .refl p
  · refine Part.Reach.trans ?_ (Part.released_reach ..)
    split
    · exact (Move.writes p _).reach
    · exact (Move.lists _ (by simpa [Part.listRoom] using room.resolve_left ‹_›)).reach

theorem settleOffers_reach (fuel : Nat) (p : Part) : p.Reach (settleOffers fuel p) := by
  induction fuel generalizing p with
  | zero => exact .refl p
  | succ fuel ih =>
    unfold settleOffers
    split
    · rename_i room
      simp only [Bool.and_eq_true, Bool.or_eq_true] at room
      split
      · exact .refl p
      · rename_i w q chosen
        obtain ⟨_, n, rfl⟩ := Part.chooseOffer_some chosen
        refine Part.Reach.trans (q := { p with choice := n }) (Part.Reach.of_frame (by simp) (by simp)) ?_
        exact (Part.take_reach { p with choice := n } w room.2).trans (ih _)
    · exact .refl p

theorem Part.settle_reach : p.Reach p.settle := settleOffers_reach 33 p

variable {p} in
/-- What follows a chain, and CQ's taking of the offers after it. -/
theorem Part.Reach.settled {q : Part} (chain : p.Reach q) : p.Reach q.settle := chain.trans q.settle_reach

theorem Part.postEvent_reach {record : Record} {q : Part} (posted : p.postEvent = some (record, q)) : p.Reach q := by
  unfold Part.postEvent at posted
  split at posted
  · cases posted; exact Part.Reach.of_frame (by simp) ⟨rfl, rfl⟩
  · split at posted
    · cases posted; exact Part.Reach.of_frame (by simp) ⟨rfl, rfl⟩
    · split at posted
      · cases posted
        refine Part.modStream_reach _ fun e => ?_
        unfold StreamEntry.post
        split
        · rfl
        · split <;> rfl
      · simp only [Option.map_eq_some_iff, Prod.mk.injEq] at posted
        obtain ⟨r, _, _, rfl⟩ := posted
        exact (p.modLandRing_same r _).reach

/-- The oldest record is written, and the place it frees on the list goes to the first waiting producer (R157). -/
theorem Part.grantPlace_reach {record : Record} {rest : List Record} (front : p.cq.list = record :: rest) :
    p.Reach (Part.grantPlace (Part.beginWrite { p with cq := { p.cq with list := rest } } record)) := by
  have written : p.Reach (Part.beginWrite { p with cq := { p.cq with list := rest } } record) := by
    refine Part.Reach.trans ?_ (Move.writes _ record).reach
    simpa only [List.append_nil] using (Move.unlists [] front (by simp)).reach
  unfold Part.grantPlace
  dsimp only
  split
  · exact written
  · rename_i w _
    unfold Part.take
    split
    · exact written.trans (Part.Reach.of_frame (by simp) (by simp))
    · rename_i next _
      refine Part.Reach.trans ?_ (Part.released_reach ..)
      have busy : Part.straight { Part.beginWrite { p with cq := { p.cq with list := rest } } record with
          cq := { (Part.beginWrite { p with cq := { p.cq with list := rest } } record).cq with turn := w } } = false := by
        simp [Part.straight, Part.mayWrite, Part.beginWrite, Part.issue]
      rw [busy, if_neg (by simp)]
      refine Part.Reach.trans (q := Part.beginWrite { p with cq := { p.cq with list := rest ++ [next] } } record)
        ((Move.unlists [next] front (by simp)).reach.trans (Move.writes _ record).reach) ?_
      exact Part.Reach.of_frame ⟨rfl, rfl, rfl, rfl, rfl, rfl, rfl⟩ ⟨rfl, rfl⟩

theorem Part.writeNext_reach : p.Reach p.writeNext := by
  unfold Part.writeNext
  split
  · exact .refl p
  · split
    · rename_i posted
      exact (p.postEvent_reach posted).trans (Move.writes ..).reach
    · split
      · exact p.settle_reach
      · rename_i front
        exact (p.grantPlace_reach front).settled

theorem Part.raise_does (bit : BitVec 3) : p.Does (p.raise bit) := (Loud.signals ..).does

theorem Part.announce_does : p.Does p.announce :=
  .after (q := { p with cq := { p.cq with unannounced := 0, holdoffTimer := .idle } })
    (Part.Reach.of_frame (by simp) (by simp)) (Part.raise_does ..)

theorem Part.countRecord_does : p.Does p.countRecord := by
  unfold Part.countRecord
  dsimp only
  split
  · exact p.announce_does
  · split
    · split
      · exact p.announce_does
      · exact (Part.Reach.of_frame (by simp) (by simp)).does
    · exact (Part.Reach.of_frame (by simp) (by simp)).does

/-! ## Send contexts and the transmitter -/

theorem Part.leaveSendLine_reach (c : Fin 32) : p.Reach (p.leaveSendLine c) := by
  unfold Part.leaveSendLine
  split
  · exact .refl p
  · rename_i i _
    have left := p.modStream_reach (i := i) (f := fun e => { e with sendLine := e.sendLine.filter fun x => decide (x ≠ c) })
      fun _ => rfl
    dsimp only
    split
    · exact left.trans (Move.exit _ i).reach
    · exact left

theorem Part.decideContext_reach (c : Fin 32) (outcome : Status) : p.Reach (p.decideContext c outcome) := by
  unfold Part.decideContext
  dsimp only
  refine Part.Reach.trans ?_ (Part.leaveSendLine_reach ..)
  split <;> exact Part.Reach.of_frame (by simp) (by simp)

theorem Part.hostReadFault_reach (c : Fin 32) : p.Reach (p.hostReadFault c) := by
  unfold Part.hostReadFault
  split
  · exact p.decideContext_reach ..
  · exact .refl p

/-- A fold whose rounds are chains of moves is one. -/
theorem Part.Reach.foldl {α : Type} (f : Part → α → Part) (round : ∀ (p : Part) a, p.Reach (f p a)) (l : List α) (p : Part) :
    p.Reach (l.foldl f p) := by
  induction l generalizing p with
  | nil => exact .refl p
  | cons a l ih => exact (round p a).trans (ih _)

theorem Part.decideAll_reach (cs : List (Fin 32)) (outcome : Status) : p.Reach (p.decideAll cs outcome) :=
  .foldl _ (fun p c => p.decideContext_reach c outcome) cs p

theorem Part.acknowledged_reach (c : Fin 32) : p.Reach (p.acknowledged c) := by
  unfold Part.acknowledged
  dsimp only
  split
  · exact Part.Reach.trans (Part.Reach.of_frame (by simp) (by simp)) (Part.decideContext_reach ..)
  · exact Part.Reach.of_frame (by simp) (by simp)

theorem Part.acknowledge_reach {n : Seq} (within : p.sq.within n = true) : p.Reach (p.acknowledge n) :=
  Part.Reach.trans (q := p.removeBefore n) (Part.Reach.of_line (by simp) fun ok => (ok.removeBefore within).1)
    (.foldl _ (fun p c => p.acknowledged_reach c) _ _)

theorem Part.validate_reach (c : Fin 32) : p.Reach (p.validate c) := by
  unfold Part.validate
  dsimp only
  split
  · exact Part.Reach.of_frame (by simp) (by simp)
  · split
    · exact Part.Reach.of_frame (by simp) (by simp)
    · exact Part.Reach.trans (q := p.modContext c fun x =>
        { x with state := .ready, parcelCount := parcelCount x.totalLength p.lk.payloadSize })
        (Part.Reach.of_frame (by simp) (by simp))
        (Part.modStream_reach _ (by intro; rfl))

theorem Part.takeSendRecord_reach (r : Fin 4) (k : Nat) (record : SendRecord) :
    p.Reach (p.takeSendRecord r k record) := by
  unfold Part.takeSendRecord
  split
  · split
    · dsimp only
      split
      · exact Part.Reach.trans (Part.Reach.of_frame (by simp) (by simp)) (Part.validate_reach ..)
      · exact Part.Reach.of_frame (by simp) (by simp)
    · exact Part.Reach.of_frame (by simp) (by simp)
  · split
    · exact .refl p
    · split
      · dsimp only
        split
        · exact Part.Reach.trans (Part.Reach.of_frame (by simp) (by simp)) (Part.validate_reach ..)
        · exact Part.Reach.of_frame (by simp) (by simp)
      · exact Part.Reach.of_frame (by simp) (by simp)

theorem Part.gather_reach (c : Fin 32) : p.Reach (p.gather c) := by
  unfold Part.gather
  dsimp only
  split
  · exact .refl p
  · exact Part.Reach.of_frame (by simp; rfl) (by simp)

theorem Part.pick_reach : p.Reach p.pick := by
  unfold Part.pick
  split
  · exact .refl p
  · split
    · split
      · exact p.gather_reach _
      · exact .refl p
    · split
      · exact .refl p
      · split
        · exact Part.Reach.trans (Part.Reach.of_frame (by simp) (by simp)) (Part.gather_reach ..)
        · exact .refl p

theorem Part.payloadReadFault_reach (d : Described) : p.Reach (p.payloadReadFault d) := by
  have fault : p.Reach (Part.hostReadFault { p with tx := { p.tx with staging := .empty } } d.context) :=
    Part.Reach.trans (Part.Reach.of_frame (by simp) (by simp)) (Part.hostReadFault_reach ..)
  unfold Part.payloadReadFault
  dsimp only
  split
  · exact fault.trans (Move.cut ..).reach
  · exact fault

theorem Part.gatherEnd_reach (k : Nat) (result : ReadEnd) : p.Reach (p.gatherEnd k result) := by
  unfold Part.gatherEnd
  split
  · dsimp only
    split
    · exact Part.Reach.of_frame (by simp) (by simp)
    · split
      · exact Part.Reach.of_frame (by simp) (by simp)
      · split
        · exact Part.Reach.of_frame (by simp) (by simp)
        · exact p.payloadReadFault_reach _
  · exact .refl p

theorem Part.refetch_reach : p.Reach p.refetch := by
  unfold Part.refetch
  split
  · exact .refl p
  · split
    · exact Part.Reach.of_frame (by simp; rfl) ⟨rfl, rfl⟩
    · exact .refl p

theorem Part.refetchFault_reach (n : Seq) : p.Reach (p.refetchFault n) := by
  unfold Part.refetchFault
  split
  · rename_i c i _ _ _ _ _ _ _
    have fault : p.Reach
        (Part.hostReadFault (Part.voidEntries { p with sq := { p.sq with slot := .empty } } c) c) :=
      Part.Reach.trans (Part.Reach.of_frame (by simp) (by simp; rfl)) (Part.hostReadFault_reach ..)
    dsimp only
    split
    · exact fault
    · exact fault.trans (Move.cut ..).reach
  · exact Part.Reach.of_frame (by simp) ⟨rfl, rfl⟩

theorem Part.refetchRead_reach (k : Nat) (result : ReadEnd) : p.Reach (p.refetchRead k result) := by
  unfold Part.refetchRead
  split
  · dsimp only
    split
    · exact Part.Reach.of_frame (by simp) ⟨rfl, rfl⟩
    · split
      · exact Part.Reach.of_frame (by simp) ⟨rfl, rfl⟩
      · split
        · exact Part.Reach.of_frame (by simp) ⟨rfl, rfl⟩
        · exact p.refetchFault_reach _
  · exact .refl p

theorem Part.withdrawSequenced_reach (i : Fin 64) : p.Reach (p.withdrawSequenced i) :=
  Part.Reach.trans (Part.modStream_reach p (by intro; rfl)) (Move.exit _ i).reach

variable {p} in
/-- A number is given to a parcel, which goes out. -/
theorem Part.SequencingOk.sends (ok : p.SequencingOk) (up : p.lk.state = .up) (room : p.roomForNew = true)
    (content : Content) (parcel : Parcel) :
    ((p.number content).countParcelSent.transmit parcel).SequencingOk := by
  simp only [Part.roomForNew, Bool.and_eq_true, decide_eq_true_eq] at room
  exact (ok.number up room.1 content).transmits rfl rfl rfl rfl rfl rfl

theorem Part.sendControl_reach : p.Reach p.sendControl := by
  unfold Part.sendControl
  split
  · exact .refl p
  · rename_i blocked
    split
    · exact .refl p
    · rename_i head rest queue
      have popped : p.Reach { p with control := rest } :=
        (Move.leave (by rw [queue]; exact List.sublist_cons_self ..)).reach
      have ready : p.lk.state = .up ∧ p.roomForNew = true := by
        simp only [Part.controlReady, Bool.or_eq_true, Bool.not_eq_true', not_or, Bool.not_eq_false, Bool.and_eq_true,
          decide_eq_true_eq] at blocked
        exact ⟨blocked.2.1.1.2, blocked.2.1.2⟩
      have sent (content : Content) (parcel : Parcel) : Part.Reach { p with control := rest }
          ((Part.number { p with control := rest } content).countParcelSent.transmit parcel) :=
        Part.Reach.of_line (by simp) fun ok => ok.sends ready.1 ready.2 content parcel
      refine popped.trans ?_
      dsimp only
      split
      · exact sent ..
      · exact sent ..
      · exact (sent ..).trans (Part.withdrawSequenced_reach ..)

theorem Part.sendStaged_reach (d : Described) (payload : List Byte) (up : p.lk.state = .up)
    (room : p.roomForNew = true) : p.Reach (p.sendStaged d payload) := by
  let content : Content := .data d.context d.stream d.index d.offset d.length d.first d.last d.mark
  let parcel : Parcel := .data p.sq.next ⟨d.stream.val, d.index, d.first, d.last, d.mark, payload⟩
  have sent : p.Reach (((p.countTurn (contextRing d.context)).number content).countParcelSent.transmit parcel) :=
    Part.Reach.of_line (by simp) fun ok =>
      Part.SequencingOk.sends (p := p.countTurn (contextRing d.context)) ok up room content parcel
  refine sent.trans ((Move.spends _ d.stream).reach.trans (Part.Reach.of_frame ?_ ⟨?_, ?_⟩))
  · simp [Part.sendStaged]
    rfl
  · simp [Part.sendStaged, Link.core, parcel, Part.countParcelSent, Part.modCounters, Part.transmit]
  · simp [Part.sendStaged]
    rfl

theorem Part.sendData_reach : p.Reach p.sendData := by
  unfold Part.sendData
  split
  · exact .refl p
  · rename_i blocked
    have ready : p.lk.state = .up ∧ p.roomForNew = true := by
      simp only [Part.stagedReady, Bool.or_eq_true, Bool.not_eq_true', not_or, Bool.not_eq_false, Bool.and_eq_true,
        decide_eq_true_eq] at blocked
      exact ⟨blocked.2.1.2, blocked.2.2⟩
    split
    · split
      · exact p.sendStaged_reach _ _ ready.1 ready.2
      · exact Part.Reach.of_frame (by simp) (by simp)
    · exact .refl p

end

end Sys2Proof.Machine

namespace Sys2Proof.Machine

section
variable (p : Part)

/-! ## The link controller -/

theorem Part.completeCommand_reach (status : Status) : p.Reach (p.completeCommand status) :=
  Part.Reach.of_frame (by simp) (by simp)

theorem Part.linkProtocolError_reach (cause : ProtocolCause) : p.Reach (p.linkProtocolError cause) :=
  Part.Reach.of_frame (by simp) ⟨rfl, rfl⟩

theorem Part.enterOffline_reach (down : p.SequencingOk → p.lk.state ≠ .up) : p.Reach p.enterOffline :=
  Part.Reach.of_line (by simp) fun ok =>
    ok.enter (down ok) (by simp) (by rw [Part.enterOffline_lk]) (by rw [Part.enterOffline_lk])
      (by rw [Part.enterOffline_lk]; exact nofun)

theorem Part.enterHello_reach (down : p.SequencingOk → p.lk.state ≠ .up) : p.Reach p.enterHello :=
  Part.Reach.of_line (by simp) fun ok => ok.enter (down ok) rfl rfl rfl nofun

theorem Part.enterAwaitSignal_reach (down : p.SequencingOk → p.lk.state ≠ .up) : p.Reach p.enterAwaitSignal :=
  Part.Reach.of_line (by simp) fun ok => ok.enter (down ok) rfl rfl rfl nofun

theorem Part.enterBySignal_reach (down : p.SequencingOk → p.lk.state ≠ .up) : p.Reach p.enterBySignal :=
  .of_ite (fun _ => p.enterHello_reach down) fun _ => p.enterAwaitSignal_reach down

theorem Part.beginTeardown_reach (cause : LinkCause) (kept : Option HelloParcel) :
    p.Reach (p.beginTeardown cause kept) := (Move.begins p cause kept).reach

theorem Part.signalAcquired_reach : p.Reach p.signalAcquired := by
  refine Part.Reach.trans (q := { p with lk := { p.lk with signalPresent := true } })
    (Part.Reach.of_frame (by simp) ⟨rfl, rfl⟩) ?_
  unfold Part.signalAcquired
  dsimp only
  split
  · rename_i waits
    exact Part.enterHello_reach _ fun _ up => by rw [waits] at up; cases up
  · exact .refl _

/-- LK waits to leave HELLO until the transmission has ended (R32, R40). -/
theorem Part.waitsToLeave_reach (hello : p.lk.state = .hello) (stops : Bool) : p.Reach
    { p with lk := { p.lk with helloTimer := .idle, helloDue := .none, helloExit := some stops } } :=
  Part.Reach.of_line (by simp) fun ok => ok.enter (by rw [hello]; exact nofun) rfl rfl rfl fun _ => hello

theorem Part.signalLost_reach : p.Reach p.signalLost := by
  have lost : p.Reach { p with lk := { p.lk with signalPresent := false } } :=
    Part.Reach.of_frame (by simp) ⟨rfl, rfl⟩
  refine lost.trans ?_
  unfold Part.signalLost
  dsimp only
  split
  · rename_i hello
    split
    · exact .refl _
    · split
      · exact Part.waitsToLeave_reach { p with lk := { p.lk with signalPresent := false } } hello false
      · exact Part.enterAwaitSignal_reach _ fun _ up => by rw [hello] at up; cases up
  · split
    · exact (Part.beginTeardown_reach ..).settled
    · exact .refl _
  · exact .refl _

theorem Part.helloExpiry_reach : p.Reach p.helloExpiry :=
  .of_ite (fun _ => Part.Reach.of_frame (by simp) ⟨rfl, rfl⟩) fun _ => .refl p

theorem Part.holdoffExpiry_reach : p.Reach p.holdoffExpiry := by
  unfold Part.holdoffExpiry
  split
  · rename_i runs
    simp only [Bool.and_eq_true, decide_eq_true_eq] at runs
    refine Part.Reach.trans (q := { p with lk := { p.lk with holdoffTimer := .idle } })
      (Part.Reach.of_frame (by simp) ⟨rfl, rfl⟩) ?_
    exact Part.enterBySignal_reach _ fun _ up => by rw [runs.1] at up; cases up
  · exact .refl p

/-- The replay begins again from the oldest entry, with the timer running (R59). -/
theorem Part.replayAgain_reach (runs : p.sq.replayTimer.isRunning = true) (count timeout : Nat) : p.Reach
    (Part.rewindTo { p with sq := { p.sq with replayCount := count, replayTimer := .running timeout } } p.sq.oldest) := by
  refine Part.Reach.of_line (by simp) fun ok => ?_
  have listed : p.sq.replay ≠ [] := fun empty => by
    rw [ok.2.2.2.2.1 empty] at runs
    cases runs
  obtain ⟨window, short, run, rewind, -, down, exit, teardown⟩ := ok
  refine Part.SequencingOk.rewindTo (p := { p with
    sq := { p.sq with replayCount := count, replayTimer := .running timeout } }) (n := p.sq.oldest)
    ⟨window, short, run, rewind, fun empty => absurd empty listed, down, exit, teardown⟩ ?_
  cases first : p.sq.replay with
  | nil => exact absurd first listed
  | cons e rest =>
    exact ⟨e, List.mem_of_mem_head? rfl, by simp [Sequencing.oldest, first]⟩

theorem Part.replayExpiry_reach : p.Reach p.replayExpiry := by
  unfold Part.replayExpiry
  dsimp only
  split
  · exact .refl p
  · rename_i runs
    rw [Bool.not_eq_true', Bool.not_eq_false] at runs
    split
    · have stopped : p.Reach { p with sq := { p.sq with replayCount := p.sq.replayCount + 1, replayTimer := .idle } } :=
        Part.Reach.of_line (by simp) fun ok => by
          obtain ⟨window, short, run, rewind, -, down, exit, teardown⟩ := ok
          exact ⟨window, short, run, rewind, fun _ => rfl, down, exit, teardown⟩
      refine stopped.trans ?_
      split
      · refine Part.Reach.settled (Part.Reach.trans ?_ (Part.beginTeardown_reach ..))
        exact Part.Reach.of_frame (by simp) ⟨rfl, rfl⟩
      · exact .refl _
    · exact p.replayAgain_reach runs ..

theorem Part.transmissionEnds_reach : p.Reach p.transmissionEnds := by
  unfold Part.transmissionEnds
  dsimp only
  split
  · exact .refl p
  · split
    · exact (Move.ends ‹_›).reach
    · rename_i none'
      have free : p.Reach { p with lk := { p.lk with transmission := none } } :=
        Part.Reach.of_line (by simp) fun ok => by
          obtain ⟨window, short, run, rewind, timer, down, exit, -⟩ := ok
          exact ⟨window, short, run, rewind, timer, down, exit, fun some' => absurd some' none'⟩
      refine free.trans ?_
      have down {b : Bool} (exit : p.lk.helloExit = some b)
          (ok : Part.SequencingOk { p with lk := { p.lk with transmission := none } }) : p.lk.state ≠ .up := by
        have hello := ok.2.2.2.2.2.2.1 (Option.isSome_of_eq_some exit)
        rw [show p.lk.state = .hello from hello]
        exact nofun
      split
      · exact .refl _
      · exact Part.enterOffline_reach _ (down ‹_›)
      · exact Part.enterBySignal_reach _ (down ‹_›)

theorem Part.helloInHello_reach (h : HelloParcel) (hello : p.lk.state = .hello)
    (stays : ¬p.lk.helloExit.isSome = true) : p.Reach (p.helloInHello h) := by
  unfold Part.helloInHello
  dsimp only
  split
  · exact p.linkProtocolError_reach _
  · rename_i valid
    have recorded : p.Reach (p.recordHello h) := Part.Reach.of_frame (by simp) ⟨rfl, rfl⟩
    refine recorded.trans ?_
    split
    case isFalse => exact .refl _
    refine Part.Reach.of_line (by simp) fun ok => ok.enterUp hello (Option.not_isSome_iff_eq_none.1 stays) ?_
    simp only [Bool.not_eq_true', Bool.not_eq_false, HelloValid, Bool.and_eq_true, decide_eq_true_eq] at valid
    exact valid.2

theorem Part.helloInUp_reach (h : HelloParcel) : p.Reach (p.helloInUp h) := by
  unfold Part.helloInUp
  dsimp only
  split
  · exact p.linkProtocolError_reach _
  · split
    · have answered (q : Part) : q.Reach { q with lk := { q.lk with helloDue := .answer } } :=
        Part.Reach.of_frame (by simp) ⟨rfl, rfl⟩
      split
      · refine (p.linkProtocolError_reach .helloMismatch).trans ?_
        exact .of_ite (fun _ => .refl _) fun _ => answered _
      · exact .of_ite (fun _ => .refl _) fun _ => answered _
    · exact (p.beginTeardown_reach _ _).settled

theorem Part.helloArrives_reach (h : HelloParcel) : p.Reach (p.helloArrives h) := by
  unfold Part.helloArrives
  split
  · split
    · exact .refl p
    · exact p.helloInHello_reach h ‹_› ‹_›
  · split
    · exact .refl p
    · exact p.helloInUp_reach h
  · exact .refl p

/-! ## The commands of the command ring -/

theorem Part.linkStart_reach (code window : Nat) : p.Reach (p.linkStart code window) := by
  unfold Part.linkStart
  split
  · exact p.completeCommand_reach _
  · rename_i offline
    rw [ne_eq, Classical.not_not] at offline
    split
    · exact p.completeCommand_reach _
    · refine Part.Reach.trans (q := { p with lk := { p.lk with offeredCode := code, offeredWindow := window } })
        (Part.Reach.of_frame (by simp) ⟨rfl, rfl⟩) ?_
      refine Part.Reach.trans (Part.enterBySignal_reach _ fun _ up => ?_) (Part.completeCommand_reach ..)
      rw [offline] at up
      cases up

theorem Part.linkStop_reach : p.Reach p.linkStop := by
  unfold Part.linkStop
  split
  · exact p.completeCommand_reach _
  · exact p.enterOffline_reach fun _ up => by simp_all
  · exact p.enterOffline_reach fun _ up => by simp_all
  · rename_i hello
    split
    · exact p.waitsToLeave_reach hello true
    · exact p.enterOffline_reach fun _ up => by rw [hello] at up; cases up
  · split
    · exact p.beginTeardown_reach ..
    · rename_i pending
      exact Part.Reach.of_frame (by simp) ⟨by simp [Link.core, pending], rfl⟩

theorem Part.streamOpen_reach (n a r allotment batch size : Nat) :
    p.Reach (p.streamOpen n a r allotment batch size) := by
  unfold Part.streamOpen
  split
  · exact p.completeCommand_reach _
  · split
    · exact p.completeCommand_reach _
    · split
      · split
        · exact p.completeCommand_reach _
        · rename_i open'
          split
          · exact p.completeCommand_reach _
          · rename_i fits
            refine Part.Reach.trans (Move.opens _ _ _ _ _ ?_ (by omega)).reach (Part.completeCommand_reach ..)
            exact Decidable.or_iff_not_imp_left.2 (by simpa using open')
      · exact p.completeCommand_reach _

theorem Part.discardQueue_same (i : Fin 64) : p.Same (p.discardQueue i) :=
  have accounts := (Part.modStream_same (p.setQueue i []) (i := i) (f := fun e => { e with occupancy := 0 })
    fun _ => rfl).accounts
  ⟨rfl, accounts, rfl, rfl, rfl, rfl, rfl, Part.SequencingOk.of_core rfl rfl⟩

theorem Part.discardQueue_reach (i : Fin 64) : p.Reach (p.discardQueue i) := (p.discardQueue_same i).reach

theorem Part.dropStagedOfStream_reach (i : Fin 64) : p.Reach (p.dropStagedOfStream i) := Part.Reach.of_frame (by simp) (by simp)

theorem Part.closeOpen_reach (i : Fin 64) : p.Reach (p.closeOpen i) := by
  refine (Move.closes p i).reach.trans ?_
  unfold Part.closeOpen
  dsimp only
  refine Part.Reach.trans ?_ (Part.closeDelivery_reach ..)
  refine Part.Reach.trans ?_ (Part.dropStagedOfStream_reach ..)
  exact Part.decideAll_reach _ _ .cancelled

theorem Part.closeWinding_reach (i : Fin 64) : p.Reach (p.closeWinding i) := by
  refine Part.Reach.trans ?_ (Part.closeDelivery_reach ..)
  refine Part.Reach.trans ?_ (Move.releases _ i).reach
  refine Part.Reach.trans ?_ (Part.discardQueue_reach _ i)
  exact Part.modStream_reach p (by intro; rfl)

theorem Part.streamClose_reach (n : Nat) : p.Reach (p.streamClose n) := by
  unfold Part.streamClose
  split
  · exact p.completeCommand_reach _
  · rename_i i _
    split
    · exact p.completeCommand_reach _
    · exact p.completeCommand_reach _
    · split
      · exact (Move.cancels p i).reach.trans (Part.completeCommand_reach ..)
      · exact p.closeOpen_reach i
    · exact p.closeOpen_reach i
    · rename_i state
      exact (Move.declines state).reach
    · exact p.closeWinding_reach i
    · rename_i state
      unfold Part.closeDisrupted
      split
      · exact (Move.waits state).reach
      · exact (Move.drops state).reach.trans (Part.completeCommand_reach ..)

theorem Part.beginSnapshot_reach (address : Addr) (bytes : List Byte) : p.Reach (p.beginSnapshot address bytes) :=
  Part.Reach.of_frame (by simp; rfl) (by simp)

theorem Part.act_reach (command : Command) : p.Reach (p.act command) := by
  cases command with
  | linkStart code window => exact p.linkStart_reach ..
  | linkStop => exact p.linkStop_reach
  | streamOpen n a r allotment batch size => exact p.streamOpen_reach ..
  | streamClose n => exact p.streamClose_reach n
  | streamQuery n address =>
    simp only [Part.act, Part.streamQuery]
    split
    · exact p.completeCommand_reach _
    · split
      · exact p.beginSnapshot_reach ..
      · exact p.completeCommand_reach _
  | linkQuery clear address =>
    simp only [Part.act, Part.linkQuery]
    split
    · exact p.beginSnapshot_reach ..
    · exact p.completeCommand_reach _
  | setTimers a l r h f g =>
    simp only [Part.act, Part.setTimers]
    split
    · exact p.completeCommand_reach _
    · split
      · exact p.completeCommand_reach _
      · exact Part.Reach.of_frame (by simp) (by simp)
  | unknown code => exact p.completeCommand_reach _

theorem Part.snapshotEnds_reach (ok : Bool) : p.Reach (p.snapshotEnds ok) := by
  unfold Part.snapshotEnds
  split
  · split
    · exact p.completeCommand_reach _
    · split
      · refine Part.Reach.trans ?_ (Part.completeCommand_reach ..)
        exact Part.Reach.of_frame (by simp) ⟨rfl, rfl⟩
      · exact p.completeCommand_reach _
  · exact .refl p

/-! ## Rings, loads and host accesses -/

theorem Part.returnRecord_reach (ring : RingId) : p.Reach (p.returnRecord ring) := by
  cases ring <;> exact Part.Reach.of_frame ⟨rfl, rfl, rfl, rfl, rfl, rfl, rfl⟩ ⟨rfl, rfl⟩

theorem Part.beginRead_reach (ring : RingId) : p.Reach (p.beginRead ring) := by
  cases ring <;> exact Part.Reach.of_frame ⟨rfl, rfl, rfl, rfl, rfl, rfl, rfl⟩ ⟨rfl, rfl⟩

theorem Part.modConsumer_reach (ring : RingId) (f : ConsumerRing → ConsumerRing) : p.Reach (p.modConsumer ring f) :=
  Part.Reach.of_frame (by simp) (by simp)

theorem Part.readOrHold_reach (ring : RingId) : p.Reach (p.readOrHold ring) := by
  unfold Part.readOrHold
  split
  · exact p.beginRead_reach ring
  · exact p.modConsumer_reach ..

theorem Part.takeCopy_reach (copy : Copy) : p.Reach (p.takeCopy copy) := by
  refine Part.Reach.settled ((p.returnRecord_reach copy.ring).trans ?_)
  cases copy with
  | command tag command => exact Part.Reach.trans (Part.Reach.of_frame (by simp) (by simp)) (Part.act_reach ..)
  | send r record => exact Part.takeSendRecord_reach ..
  | landing r address length => exact Part.takeLandingRecord_reach ..

theorem Part.onAccessEnd_reach (k : AccessKind) (st : DeviceState) {deliver : Part → Part}
    (delivered : ∀ q : Part, q.Reach (deliver q)) : p.Reach (p.onAccessEnd k st deliver) := by
  unfold Part.onAccessEnd
  split
  · exact .refl p
  · split
    · exact (p.endAccess_reach k).trans (delivered _)
    · exact p.endAccess_reach k

theorem Part.onReadEnd_reach (k : AccessKind) (result : ReadEnd) (st : DeviceState) {deliver : Part → Part}
    (delivered : ∀ q : Part, q.Reach (deliver q)) : p.Reach (p.onReadEnd k result st deliver) := by
  unfold Part.onReadEnd
  split
  · exact .refl p
  · split
    · exact p.onAccessEnd_reach k st delivered
    · exact .refl p

/-- The end of an access in a device state, with what it does then. -/
theorem Part.onAccessEnd_does (k : AccessKind) (st : DeviceState) {deliver : Part → Part}
    (delivered : ∀ q : Part, q.hi.deviceState = st → q.Does (deliver q)) : p.Does (p.onAccessEnd k st deliver) := by
  unfold Part.onAccessEnd
  split
  · exact (Part.Reach.refl p).does
  · split
    · rename_i here
      exact .after (p.endAccess_reach k) (delivered _ here)
    · exact (p.endAccess_reach k).does

theorem Part.onReadEnd_does (k : AccessKind) (result : ReadEnd) (st : DeviceState) {deliver : Part → Part}
    (delivered : ∀ q : Part, q.hi.deviceState = st → q.Does (deliver q)) : p.Does (p.onReadEnd k result st deliver) := by
  unfold Part.onReadEnd
  split
  · exact (Part.Reach.refl p).does
  · split
    · exact p.onAccessEnd_does k st delivered
    · exact (Part.Reach.refl p).does

theorem Part.ringReadEnds_does (ring : RingId) (result : ReadEnd) : p.Does (p.ringReadEnds ring result) := by
  refine p.onReadEnd_does _ _ _ fun q running => ?_
  cases result with
  | failed => exact (Loud.faults _ (.inl running)).does
  | data record =>
    refine Part.Reach.does ?_
    dsimp only
    split
    · exact q.takeCopy_reach _
    · unfold Part.recordNotHanded
      split
      · exact (q.modConsumer_reach ..).trans (Part.beginRead_reach ..)
      · exact q.modConsumer_reach ..

theorem Part.custodyWriteEnds_does (ring : RingId) (ok : Bool) : p.Does (p.custodyWriteEnds ring ok) := by
  refine p.onAccessEnd_does _ _ fun q running => ?_
  split
  · exact (q.readOrHold_reach ring).does
  · exact (Loud.faults _ (.inl running)).does

theorem Part.recordArrives_reach (copy : Copy) : p.Reach (p.recordArrives copy) :=
  p.onAccessEnd_reach _ _ fun q => q.takeCopy_reach copy

theorem Part.heldRead_reach (ring : RingId) : p.Reach (p.heldRead ring) := by
  unfold Part.heldRead
  split
  · exact p.beginRead_reach ring
  · exact .refl p

theorem Part.notify_does (value : BitVec 32) : p.Does (p.notify value) := by
  unfold Part.notify
  split
  · exact (Part.Reach.refl p).does
  · split
    · refine Part.Reach.does ?_
      unfold Part.notifyRing
      split
      · exact p.readOrHold_reach _
      · exact p.modConsumer_reach ..
      · exact .refl p
      · exact .refl p
    · unfold Part.returnSlots
      split
      · rename_i fits
        simp only [Bool.and_eq_true, decide_eq_true_eq] at fits
        exact (Move.returns fits.2).reach.does
      · exact p.raise_does _
    · exact p.raise_does _

theorem Part.configReadEnds_does (result : ReadEnd) : p.Does (p.configReadEnds result) := by
  refine p.onReadEnd_does _ _ _ fun q loading => ?_
  split
  · unfold Part.abandonedLoadEnds
    split
    · rename_i enabled
      have begins := (Loud.begins (p := q) (.inr loading)).does
      rwa [← enabled] at begins
    · rename_i disabled
      exact (Loud.disables loading (eq_false_of_ne_true disabled)).does
  · rename_i kept
    cases result with
    | failed => exact (Loud.faults _ (.inr loading)).does
    | data block =>
      simp only [Part.checkConfig]
      split
      · exact (Loud.loads _ loading (eq_false_of_ne_true kept) ‹_›).does
      · exact (Loud.faults _ (.inr loading)).does

theorem Part.writeControl_does (value : BitVec 32) : p.Does (p.writeControl value) := by
  unfold Part.writeControl
  dsimp only
  split
  · exact (Loud.resets p).does
  · split
    · exact (Part.Reach.refl p).does
    · split
      · rename_i disabled enable
        rw [enable]
        exact (Loud.begins (.inl disabled)).does
      · rename_i loading disable
        rw [disable]
        exact (Loud.abandons loading).does
      · exact (Loud.resets p).does
      · rename_i other₁ other₂ other₃
        refine (Loud.enables _ (fun state => ?_) (fun state => ?_) fun state => ?_).does
        · exact eq_false_of_ne_true (other₁ state)
        · exact eq_true_of_ne_false (other₂ state)
        · exact eq_true_of_ne_false (other₃ state)

theorem Part.writeRegister_does (offset : BitVec 12) (value : BitVec 32) : p.Does (p.writeRegister offset value) := by
  unfold Part.writeRegister
  split
  · exact p.writeControl_does value
  · exact (Loud.signals ..).does
  · exact (Loud.signals ..).does
  · exact (Loud.addresses p value p.hi.configHi).does
  · exact (Loud.addresses p p.hi.configLo value).does
  · exact p.notify_does value
  · exact (Part.Reach.refl p).does

theorem Part.completionWriteEnds_does (ok : Bool) : p.Does (p.completionWriteEnds ok) := by
  refine p.onAccessEnd_does _ _ fun q running => ?_
  split
  · exact .after (Part.Reach.of_frame (by simp) (by simp)) (Part.countRecord_does ..)
  · exact (Loud.faults _ (.inl running)).does

theorem Part.accessFails_does (kind : AccessKind) : p.Does (p.accessFails kind) := by
  cases kind with
  | configRead => exact p.configReadEnds_does _
  | ringRead ring => exact p.ringReadEnds_does ..
  | custodyWrite ring => exact p.custodyWriteEnds_does ..
  | gatherRead k => exact (p.onReadEnd_reach _ _ _ fun q => (q.gatherEnd_reach ..).settled).does
  | refetchRead k => exact (p.onReadEnd_reach _ _ _ fun q => (q.refetchRead_reach ..).settled).does
  | landingWrite r k => exact (p.onAccessEnd_reach _ _ fun q => (q.landingWriteEnd_reach ..).settled).does
  | snapshotWrite => exact (p.onAccessEnd_reach _ _ fun q => (q.snapshotEnds_reach _).settled).does
  | completionWrite => exact p.completionWriteEnds_does _

theorem Part.oldAccessEnds_reach (access : OldAccess) : p.Reach (p.oldAccessEnds access) := by
  cases access <;> exact Part.Reach.of_frame (by simp; rfl) (by simp)

theorem Part.accessTimesOut_does (access : AccessRef) : p.Does (p.accessTimesOut access) := by
  cases access with
  | live kind =>
    simp only [Part.accessTimesOut]
    split
    · exact (Part.Reach.refl p).does
    · rename_i a _
      exact .after (q := p.expectLate a) (Part.Reach.of_frame (by simp; rfl) (by simp)) (Part.accessFails_does ..)
  | stale k =>
    simp only [Part.accessTimesOut]
    split
    · exact (Part.Reach.refl p).does
    · exact ((p.oldAccessEnds_reach _).trans (Part.Reach.of_frame (by simp; rfl) (by simp))).does

/-! ## Arrivals -/

theorem Part.missedParcel_reach : p.Reach p.missedParcel :=
  .of_ite (fun _ => .refl p) fun _ => Part.Reach.of_frame (by simp) ⟨rfl, rfl⟩

theorem Part.badArrives_reach : p.Reach p.badArrives := by
  have counted : p.Reach p.countBadParcel := Part.Reach.of_frame (by simp) ⟨rfl, rfl⟩
  unfold Part.badArrives
  split
  · exact .of_ite (fun _ => .refl p) fun _ => counted
  · exact .of_ite (fun _ => .refl p) fun _ => counted.trans (Part.missedParcel_reach _)
  · exact .refl p

theorem Part.sequencedArrives_reach (n : Seq) {deliver : Part → Part}
    (delivered : ∀ q : Part, q.Reach (deliver q)) : p.Reach (p.sequencedArrives n deliver) := by
  unfold Part.sequencedArrives
  split
  · exact .refl p
  · split
    · refine Part.Reach.trans ?_ (delivered _)
      exact Part.Reach.of_frame (by simp) ⟨rfl, rfl⟩
    · split
      · exact Part.Reach.of_frame (by simp) ⟨rfl, rfl⟩
      · exact p.missedParcel_reach

theorem Part.toStream_reach (n : Nat) {f : Fin 64 → Part} (delivered : ∀ i, p.Reach (f i)) :
    p.Reach (p.toStream n f) := by
  unfold Part.toStream
  split
  · exact delivered _
  · exact p.linkProtocolError_reach _

theorem Part.appendInbound_reach (i : Fin 64) (entry : InboundEntry) : p.Reach (p.appendInbound i entry) :=
  Part.Reach.of_frame (by simp; rfl) (by simp)

theorem Part.takeDataParcel_reach (i : Fin 64) (d : DataParcel) : p.Reach (p.takeDataParcel i d) := by
  unfold Part.takeDataParcel
  dsimp only
  split
  · split
    · refine Part.Reach.trans ?_ ((Part.askClaim_reach ..).trans (Part.refreshRing_reach ..))
      refine (p.appendInbound_reach i (.data ⟨d.index, d.first, d.last, d.mark, d.payload⟩)).trans ?_
      refine Part.Reach.trans (Part.modStream_reach _ (i := i) (f := fun e => { e with occupancy := e.occupancy + 1 })
        fun _ => rfl) (Part.Reach.of_frame (by simp) (by simp))
    · exact p.streamProtocolError_reach ..
  · exact .refl p
  · exact p.streamProtocolError_reach ..

theorem Part.takeWithdraw_reach (i : Fin 64) : p.Reach (p.takeWithdraw i) := by
  unfold Part.takeWithdraw
  dsimp only
  split
  iterate 3
    · refine (Move.winds p i).reach.trans ((Move.withdraw _ i).reach.trans ?_)
      refine (Part.decideAll_reach _ (p.stream i).sendLine .peerClosed).trans ?_
      refine Part.Reach.trans ?_ (Part.refreshRing_reach ..)
      exact Part.Reach.trans (Part.Reach.of_frame (by simp) (by simp)) (Part.appendInbound_reach ..)
  · exact p.streamProtocolError_reach ..
  all_goals
    split
    · exact (Move.forgets p i).reach.trans (Move.withdraw _ i).reach
    · split
      · exact Part.Reach.trans (Part.modStream_reach _ (by intro; rfl)) (Move.exit _ i).reach
      · exact p.streamProtocolError_reach ..

theorem Part.takeCut_reach (i : Fin 64) : p.Reach (p.takeCut i) := by
  unfold Part.takeCut
  dsimp only
  split
  · exact (p.appendInbound_reach ..).trans (Part.refreshRing_reach ..)
  · exact .refl p

theorem Part.ackArrives_reach (n : Seq) : p.Reach (p.ackArrives n) := by
  unfold Part.ackArrives
  split
  · exact .refl p
  · split
    · exact (p.acknowledge_reach ‹_›).settled
    · exact Part.Reach.of_frame (by simp) ⟨rfl, rfl⟩

/-! What an acknowledgement counts for the contexts neither reads nor changes SQ. -/

theorem Part.reportClose_withSq (sq : Sequencing) (i : Fin 64) (status : Status) :
    Part.reportClose { p with sq := sq } i status = { p.reportClose i status with sq := sq } := by
  unfold Part.reportClose
  change (if p.closeInProgress i = true then _ else _) = _
  split <;> rfl

theorem Part.exitTest_withSq (sq : Sequencing) (i : Fin 64) :
    Part.exitTest { p with sq := sq } i = { p.exitTest i with sq := sq } := by
  have told (q : Part) := q.reportClose_withSq sq i .ok
  unfold Part.exitTest
  dsimp only
  rw [show Part.stream { p with sq := sq } i = p.stream i from rfl,
    show Part.quiet { p with sq := sq } i = p.quiet i from rfl]
  split
  · split
    · exact told (p.modStream i StreamEntry.leave)
    · rfl
  · split
    · split
      · exact told ((p.release i).modStream i StreamEntry.leave)
      · rfl
    · rfl
  · rfl

theorem Part.leaveSendLine_withSq (sq : Sequencing) (c : Fin 32) :
    Part.leaveSendLine { p with sq := sq } c = { p.leaveSendLine c with sq := sq } := by
  unfold Part.leaveSendLine
  rw [show Part.context { p with sq := sq } c = p.context c from rfl]
  split
  · rfl
  · rename_i i _
    let f : StreamEntry → StreamEntry := fun e => { e with sendLine := e.sendLine.filter fun x => decide (x ≠ c) }
    change (if ((p.modStream i f).stream i).sendLine.isEmpty = true
        then Part.exitTest { p.modStream i f with sq := sq } i else { p.modStream i f with sq := sq })
      = { (if ((p.modStream i f).stream i).sendLine.isEmpty = true
        then (p.modStream i f).exitTest i else p.modStream i f) with sq := sq }
    split
    · exact (p.modStream i f).exitTest_withSq sq i
    · rfl

theorem Part.dropStagedOfContext_withSq (sq : Sequencing) (c : Fin 32) :
    Part.dropStagedOfContext { p with sq := sq } c = { p.dropStagedOfContext c with sq := sq } := by
  unfold Part.dropStagedOfContext
  dsimp only
  split <;> rfl

theorem Part.decideOk_withSq (sq : Sequencing) (c : Fin 32) :
    Part.decideContext { p with sq := sq } c .ok = { p.decideContext c .ok with sq := sq } := by
  have dropped := (p.completeContext c .ok).dropStagedOfContext_withSq sq c
  have left := ((p.completeContext c .ok).dropStagedOfContext c).leaveSendLine_withSq sq c
  rw [← dropped] at left
  exact left

theorem Part.acknowledged_withSq (sq : Sequencing) (c : Fin 32) :
    Part.acknowledged { p with sq := sq } c = { p.acknowledged c with sq := sq } := by
  have decided := (p.modContext c fun x => { x with acknowledged := x.acknowledged + 1 }).decideOk_withSq sq c
  unfold Part.acknowledged
  dsimp only
  rw [show ∀ f, Part.context (Part.modContext { p with sq := sq } c f) c = (p.modContext c f).context c from
    fun _ => rfl]
  split
  · exact decided
  · rfl

theorem Part.acknowledgedAll_withSq (sq : Sequencing) (cs : List (Fin 32)) :
    cs.foldl Part.acknowledged { p with sq := sq } = { cs.foldl Part.acknowledged p with sq := sq } := by
  induction cs generalizing p with
  | nil => rfl
  | cons c cs ih => rw [List.foldl_cons, Part.acknowledged_withSq, ih, List.foldl_cons]

theorem Part.acknowledgedAll_sq (cs : List (Fin 32)) : (cs.foldl Part.acknowledged p).sq = p.sq := by
  have same := p.acknowledgedAll_withSq p.sq cs
  exact (congrArg Part.sq same :)

/-- A RETRY acknowledges what is older, and rewinds to its number where that is on the list. -/
theorem Part.acknowledge_rewindTo_reach {n : Seq} (within : p.sq.within n = true) :
    p.Reach (if n = (p.acknowledge n).sq.next then p.acknowledge n else (p.acknowledge n).rewindTo n) := by
  have next : (p.acknowledge n).sq.next = (p.removeBefore n).sq.next := by
    rw [Part.acknowledge, Part.acknowledgedAll_sq]
  split
  · exact p.acknowledge_reach within
  · rename_i other
    rw [next] at other
    have commutes : (p.acknowledge n).rewindTo n =
        (p.sq.acknowledgedContexts n).foldl Part.acknowledged ((p.removeBefore n).rewindTo n) := by
      rw [Part.rewindTo, Part.acknowledge, Part.acknowledgedAll_sq, ← Part.acknowledgedAll_withSq]
      rfl
    rw [commutes]
    have rewound : p.Reach ((p.removeBefore n).rewindTo n) := Part.Reach.of_line (by simp) fun ok =>
      have ⟨older, listed⟩ := ok.removeBefore within
      older.rewindTo (listed other)
    exact rewound.trans (.foldl _ (fun p c => p.acknowledged_reach c) _ _)

theorem Part.retryArrives_reach (n : Seq) : p.Reach (p.retryArrives n) := by
  have counted : p.Reach p.countRetryReceived := Part.Reach.of_frame (by simp) ⟨rfl, rfl⟩
  unfold Part.retryArrives
  dsimp only
  split
  · exact .refl p
  · refine counted.trans ?_
    split
    · exact (Part.acknowledge_rewindTo_reach _ ‹_›).settled
    · exact Part.Reach.of_frame (by simp) ⟨rfl, rfl⟩

theorem Part.parcelArrives_reach (parcel : Parcel) : p.Reach (p.parcelArrives parcel) := by
  cases parcel with
  | data n d =>
    simp only [Part.parcelArrives, Part.dataArrives]
    split
    · exact p.sequencedArrives_reach n fun q => q.toStream_reach _ fun i => q.takeDataParcel_reach i d
    · exact p.badArrives_reach
  | grant n g => exact p.sequencedArrives_reach n fun q => q.toStream_reach _ fun i => (Move.heard q i g).reach
  | withdraw n stream =>
    exact p.sequencedArrives_reach n fun q => (q.toStream_reach _ fun i => q.takeWithdraw_reach i).settled
  | cut n stream => exact p.sequencedArrives_reach n fun q => q.toStream_reach _ fun i => q.takeCut_reach i
  | void n => exact p.sequencedArrives_reach n fun q => .refl q
  | ack n => exact p.ackArrives_reach n
  | retry n => exact p.retryArrives_reach n
  | hello h => exact p.helloArrives_reach h

theorem Part.bytesArrive_reach (bytes : List Byte) : p.Reach (p.bytesArrive bytes) := by
  unfold Part.bytesArrive
  split
  · exact p.parcelArrives_reach _
  · exact p.badArrives_reach

/-! ## Transmissions without a new number -/

theorem Part.transmit_reach (parcel : Parcel) : p.Reach (p.transmit parcel) :=
  Part.Reach.of_line (by simp) fun ok => ok.transmits rfl rfl rfl rfl rfl rfl

theorem Part.sendHello_reach : p.Reach p.sendHello := by
  unfold Part.sendHello
  split
  · exact .refl p
  · exact Part.Reach.trans (q := { p with lk := { p.lk with helloDue := .none } })
      (Part.Reach.of_frame (by simp) ⟨rfl, rfl⟩) (Part.transmit_reach ..)

theorem Part.sendNote_reach : p.Reach p.sendNote := by
  unfold Part.sendNote
  split
  · exact .refl p
  · refine Part.Reach.trans (q := { p with sq := { p.sq with note := .none, unacknowledged := 0, ackTimer := .idle } })
      (Part.Reach.of_frame (by simp) ⟨rfl, rfl⟩) ?_
    dsimp only
    split
    · refine Part.Reach.trans ?_ (Part.transmit_reach ..)
      exact Part.Reach.of_frame (by simp) ⟨rfl, rfl⟩
    · exact Part.transmit_reach ..

theorem Part.rewindEntry_listed {e : ReplayEntry} (entry : p.rewindEntry = some e) :
    ∃ e' ∈ p.sq.replay, e'.seq = e.seq := by
  unfold Part.rewindEntry at entry
  split at entry
  · cases entry
  · exact ⟨e, List.mem_of_find?_eq_some entry, rfl⟩

theorem Part.sendReplay_reach : p.Reach p.sendReplay := by
  unfold Part.sendReplay
  split
  · exact .refl p
  · split
    · exact .refl p
    · rename_i e entry
      refine Part.Reach.trans ?_ (Part.transmit_reach ..)
      refine Part.Reach.of_line (by simp) fun ok => ?_
      have after {m : Seq} := ok.rewindAfter (n := e.seq) (m := m) (p.rewindEntry_listed entry)
      obtain ⟨window, short, run, -, timer, down, exit, teardown⟩ := ok
      exact ⟨window, short, run, fun m next => after next, timer, down, exit, teardown⟩

end

/-! ## The rows of the table -/

/-- The effect of every command but a power-on reset is a chain of moves, and perhaps a change of HI at its end. -/
theorem Instr.effect_does (p : Part) {c : Instr} (runs : c ≠ .powerOnReset) : p.Does (Instr.effect p c) := by
  cases c with
  | powerOnReset => exact absurd rfl runs
  | controlReset value | controlEnable value | controlDisable value => exact p.writeControl_does value
  | eventWrite value | intMaskWrite value => exact (Loud.signals ..).does
  | registerWriteOther offset value => exact p.writeRegister_does ..
  | ringNotify value | completionReturn value | notifyInvalidSelector value => exact p.notify_does value
  | configReadEnd result => exact p.configReadEnds_does result
  | signalAcquired => exact p.signalAcquired_reach.does
  | signalLost => exact p.signalLost_reach.does
  | dataArrival n d => exact (p.parcelArrives_reach (.data n d)).does
  | grantArrival n g => exact (p.parcelArrives_reach (.grant n g)).does
  | withdrawArrival n stream => exact (p.parcelArrives_reach (.withdraw n stream)).does
  | cutArrival n stream => exact (p.parcelArrives_reach (.cut n stream)).does
  | voidArrival n => exact (p.parcelArrives_reach (.void n)).does
  | ackArrival n => exact (p.ackArrives_reach n).does
  | retryArrival n => exact (p.retryArrives_reach n).does
  | helloArrival h => exact (p.helloArrives_reach h).does
  | badParcel bytes => exact (p.bytesArrive_reach bytes).does
  | helloTimerExpiry => exact p.helloExpiry_reach.does
  | holdoffTimerExpiry => exact p.holdoffExpiry_reach.does
  | ackDelayExpiry =>
    exact Part.Reach.does (.of_ite (fun _ => Part.Reach.of_frame (by simp) ⟨rfl, rfl⟩) fun _ => .refl p)
  | replayTimerExpiry => exact p.replayExpiry_reach.does
  | gapTimerExpiry ring => exact ((p.gapExpiry_reach ring).settled).does
  | interruptHoldoffExpiry =>
    exact .of_ite (fun _ => p.announce_does) fun _ => (Part.Reach.refl p).does
  | hostAccessTimeout access => exact p.accessTimesOut_does access
  | teardownApply => exact ((Move.tears p).reach.settled).does
  | sendHello => exact p.sendHello_reach.does
  | sendPendingNote => exact p.sendNote_reach.does
  | sendReplay => exact p.sendReplay_reach.does
  | sendControlParcel => exact p.sendControl_reach.settled.does
  | sendDataParcel => exact p.sendData_reach.does
  | transmissionEnd => exact p.transmissionEnds_reach.settled.does
  | dataPick => exact p.pick_reach.does
  | gatherReadEnd k result => exact (p.onReadEnd_reach _ _ _ fun q => (q.gatherEnd_reach ..).settled).does
  | refetchStart => exact p.refetch_reach.does
  | refetchEnd k result => exact (p.onReadEnd_reach _ _ _ fun q => (q.refetchRead_reach ..).settled).does
  | ringReadEnd ring result => exact p.ringReadEnds_does ..
  | custodyWriteEnd ring ok => exact p.custodyWriteEnds_does ..
  | heldRingRead ring => exact (p.heldRead_reach ring).does
  | sendHeadRecord ring h => exact (p.recordArrives_reach _).does
  | sendFragmentRecord ring record | strayRecord ring record => exact (p.recordArrives_reach _).does
  | landingRecord ring address length => exact (p.recordArrives_reach _).does
  | linkStart tag code window => exact (p.recordArrives_reach _).does
  | linkStop tag => exact (p.recordArrives_reach _).does
  | streamOpen tag i a r allotment batch size => exact (p.recordArrives_reach _).does
  | streamClose tag i => exact (p.recordArrives_reach _).does
  | streamQuery tag i address => exact (p.recordArrives_reach _).does
  | linkQuery tag clear address => exact (p.recordArrives_reach _).does
  | setTimers tag ack limit replay hello holdoff gap => exact (p.recordArrives_reach _).does
  | unknownCommand tag code => exact (p.recordArrives_reach _).does
  | snapshotWriteEnd ok => exact (p.onAccessEnd_reach _ _ fun q => (q.snapshotEnds_reach ok).settled).does
  | deliveryTake =>
    exact Part.Reach.does (.of_ite (fun _ => p.deliver_reach.settled) fun _ => .refl p)
  | landingWriteEnd ring k ok => exact (p.onAccessEnd_reach _ _ fun q => (q.landingWriteEnd_reach ..).settled).does
  | completionWriteBegin => exact p.writeNext_reach.does
  | completionWriteEnd ok => exact p.completionWriteEnds_does ok
  | staleAccessEnd access result => exact (p.oldAccessEnds_reach access).does

/-- What every command's effect has, every step has. -/
theorem step_effect {s t : State} (stepped : step s = .next t) :
    t = s ∨ ∃ c, t.toPart = Instr.effect s.toPart c := by
  cases front : s.pending with
  | nil =>
    simp only [step, front, Host.Outcome.next.injEq] at stepped
    exact .inl stepped.symm
  | cons c rest =>
    simp only [step, front, exec_eq_effect, State.become, Host.Outcome.next.injEq] at stepped
    exact .inr ⟨c, by rw [← stepped]⟩

/-- What every move, every change of HI and a power-on reset keeps, every step keeps. -/
theorem step_keeps {I : Part → Prop} (kept : ∀ {p q}, Move p q → I p → I q) (loud : ∀ {p q}, Loud p q → I p → I q)
    (powers : ∀ p : Part, I p.powerOnReset) {s t : State} (holds : I s.toPart) (stepped : step s = .next t) : I t.toPart := by
  rcases step_effect stepped with rfl | ⟨c, effect⟩
  · exact holds
  · rw [effect]
    by_cases power : c = .powerOnReset
    · rw [power]; exact powers _
    · rcases Instr.effect_does s.toPart power with chain | ⟨m, chain, last⟩
      · exact chain.keeps kept holds
      · exact loud last (chain.keeps kept holds)

end Sys2Proof.Machine

/-! PROOF. The invariants of R23, R71, R81 and R146: each move keeps them, and so every step does. -/

namespace Sys2Proof.Machine

/-! ## What a change of HI does elsewhere -/

/-- The part that the streams and the control queue see after a reset. -/
structure Part.Initial (p : Part) : Prop where
  control : p.control = []
  streams : p.streams = .fill 64 {}
  ib : p.ib = {}
  cq : p.cq = {}
  config : p.hi.config = {}
  line : p.SequencingOk

/-- A change of HI leaves streams, store and control queue alone; only a load changes the configuration. -/
structure Part.Aside (p q : Part) : Prop where
  control : q.control = p.control
  streams : q.streams = p.streams
  ib : q.ib = p.ib
  list : q.cq.list = p.cq.list
  serial : q.cq.serial = p.cq.serial
  free : q.cq.free = p.cq.free ∧ q.hi.config = p.hi.config ∨ q.cq.free = q.hi.config.completion.length
  line : p.SequencingOk → q.SequencingOk

theorem Part.powerOnReset_initial (p : Part) : p.powerOnReset.Initial :=
  ⟨rfl, rfl, rfl, rfl, rfl, .empty (Nat.zero_le _) rfl rfl rfl rfl rfl rfl⟩

theorem Loud.elsewhere {p q : Part} (loud : Loud p q) : q.Initial ∨ p.Aside q := by
  have faulted (r : Part) (cause : FaultCause) : r.Aside (r.enterFault cause) :=
    ⟨rfl, rfl, rfl, rfl, rfl, .inl ⟨rfl, rfl⟩, fun ok => .empty ok.1 rfl rfl rfl rfl rfl rfl⟩
  cases loud with
  | resets => exact .inl ⟨rfl, rfl, rfl, rfl, rfl, .empty (Nat.zero_le _) rfl rfl rfl rfl rfl rfl⟩
  | loads config => exact .inr ⟨rfl, rfl, rfl, rfl, rfl, .inr rfl, id⟩
  | faults cause => exact .inr (faulted p cause)
  | begins =>
    refine .inr ?_
    unfold Part.beginLoad
    dsimp only
    split
    · exact ⟨rfl, rfl, rfl, rfl, rfl, .inl ⟨rfl, rfl⟩, id⟩
    · exact ⟨rfl, rfl, rfl, rfl, rfl, .inl ⟨rfl, rfl⟩, fun ok => .empty ok.1 rfl rfl rfl rfl rfl rfl⟩
  | signals | addresses | abandons | disables | enables =>
    exact .inr ⟨rfl, rfl, rfl, rfl, rfl, .inl ⟨rfl, rfl⟩, id⟩

/-! ## The control queue (R23) -/

section
variable {l : List ControlEntry} {i j : Fin 64} {e : ControlEntry}

/-- A test that no entry of a queue meets counts none. -/
theorem countOf_eq_zero {test : ControlEntry → Bool} : countOf l test = 0 ↔ l.any test = false := by
  simp [countOf, List.filter_eq_nil_iff]

theorem countOf_append_one (test : ControlEntry → Bool) :
    countOf (l ++ [e]) test = countOf l test + if test e then 1 else 0 := by
  unfold countOf
  rw [List.filter_append, List.length_append]
  split
  · next met => simp [met]
  · next unmet => simp [unmet]

/-- What a queue keeps, each of its sublists keeps. -/
theorem ControlOk.sublist {m : List ControlEntry} (ok : ControlOk l) (part : m.Sublist l) : ControlOk m := by
  intro i
  obtain ⟨grants, withdraws, cuts, alone⟩ := ok i
  have fewer (test) : countOf m test ≤ countOf l test := (part.filter test).length_le
  have fewerGrants := fewer (ControlEntry.isGrantOf i)
  have fewerWithdraws := fewer (ControlEntry.isWithdrawOf i)
  have fewerCuts := fewer (ControlEntry.isCutOf i)
  refine ⟨by omega, by omega, by omega, fun some => ?_⟩
  obtain ⟨noGrant, noCut⟩ := alone (by omega)
  omega

/-- A merge changes an entry's credits, and so counts the same. -/
theorem countOf_merge (n : Nat) {test : ControlEntry → Bool}
    (blind : ∀ e, test (ControlEntry.merge j n e) = test e) :
    countOf (l.map (ControlEntry.merge j n)) test = countOf l test := by
  simp [countOf, List.filter_map, Function.comp_def, blind]

theorem ControlOk.merge (ok : ControlOk l) (n : Nat) : ControlOk (l.map (ControlEntry.merge j n)) := by
  intro i
  have grants (e) : (ControlEntry.merge j n e).isGrantOf i = e.isGrantOf i := by
    cases e <;> simp only [ControlEntry.merge]; split <;> rfl
  have withdraws (e) : (ControlEntry.merge j n e).isWithdrawOf i = e.isWithdrawOf i := by
    cases e <;> simp only [ControlEntry.merge]; split <;> rfl
  have cuts (e) : (ControlEntry.merge j n e).isCutOf i = e.isCutOf i := by
    cases e <;> simp only [ControlEntry.merge]; split <;> rfl
  rw [countOf_merge n grants, countOf_merge n withdraws, countOf_merge n cuts]
  exact ok i

/-- An entry may join a queue where none of its kind for its stream waits, nor one that may not stand beside it. -/
theorem ControlOk.append (ok : ControlOk l)
    (grant : ∀ i, e.isGrantOf i → l.any (ControlEntry.isGrantOf i) = false ∧ l.any (ControlEntry.isWithdrawOf i) = false)
    (cut : ∀ i, e.isCutOf i → l.any (ControlEntry.isCutOf i) = false ∧ l.any (ControlEntry.isWithdrawOf i) = false)
    (withdraw : ∀ i, e.isWithdrawOf i → l.any (ControlEntry.isGrantOf i) = false
      ∧ l.any (ControlEntry.isCutOf i) = false ∧ l.any (ControlEntry.isWithdrawOf i) = false) :
    ControlOk (l ++ [e]) := by
  simp only [← countOf_eq_zero] at grant cut withdraw
  intro i
  obtain ⟨grants, withdraws, cuts, alone⟩ := ok i
  specialize grant i
  specialize cut i
  specialize withdraw i
  simp only [countOf_append_one]
  cases e <;> simp_all only [ControlEntry.isGrantOf, ControlEntry.isWithdrawOf, ControlEntry.isCutOf] <;> grind

end

section
variable {p : Part} {i : Fin 64}

theorem Part.queueGrant_keeps (a c m : Nat) (ok : ControlOk p.control) : ControlOk (p.queueGrant i a c m).control := by
  unfold Part.queueGrant
  split
  · exact ok.merge c
  · split
    · exact ok
    · rename_i noGrant noWithdraw
      refine ok.append (fun j here => ?_) (fun j here => ?_) fun j here => ?_
      · obtain rfl : i = j := by simpa [ControlEntry.isGrantOf] using here
        exact ⟨eq_false_of_ne_true noGrant, eq_false_of_ne_true noWithdraw⟩
      · cases here
      · cases here

theorem Part.queueCut_keeps (ok : ControlOk p.control) : ControlOk (p.queueCut i).control := by
  unfold Part.queueCut
  split
  · rename_i free
    simp only [Bool.and_eq_true, decide_eq_true_eq, Bool.not_eq_true'] at free
    obtain ⟨⟨-, noWithdraw⟩, noCut⟩ := free
    refine ok.append (fun j here => ?_) (fun j here => ?_) fun j here => ?_
    · cases here
    · obtain rfl : i = j := by simpa [ControlEntry.isCutOf] using here
      exact ⟨noCut, noWithdraw⟩
    · cases here
  · exact ok

theorem Part.queueWithdraw_keeps (ok : ControlOk p.control) : ControlOk (p.queueWithdraw i).control := by
  unfold Part.queueWithdraw
  dsimp only
  have kept := ok.sublist (List.filter_sublist (p := fun e => !(e.isGrantOf i || e.isCutOf i)))
  split
  · exact kept
  · rename_i noWithdraw
    refine kept.append (fun j here => ?_) (fun j here => ?_) fun j here => ?_
    · cases here
    · cases here
    · obtain rfl : i = j := by simpa [ControlEntry.isWithdrawOf] using here
      have none' : ∀ e ∈ p.control, e.isWithdrawOf i = false := by
        simpa [Part.withdrawWaits] using noWithdraw
      simp only [List.any_eq_false, List.mem_filter]
      grind

theorem Part.applyTeardown_control (p : Part) : p.applyTeardown.control = p.control ∨ p.applyTeardown.control = [] := by
  unfold Part.applyTeardown
  split
  · exact .inr (by simp [Part.teardownUnits, Part.teardownStreams])
  · exact .inl rfl

theorem Part.applyTeardown_keeps (p : Part) (ok : ControlOk p.control) : ControlOk p.applyTeardown.control := by
  rcases p.applyTeardown_control with kept | emptied
  · exact kept ▸ ok
  · rw [emptied]; intro i; simp [countOf]

/-- Every move keeps the control queue as R23 says. -/
theorem Move.keeps_control {p q : Part} (move : Move p q) (ok : ControlOk p.control) : ControlOk q.control := by
  cases move with
  | same same => exact same.control ▸ ok
  | grant => exact Part.queueGrant_keeps _ _ _ ok
  | withdraw => exact Part.queueWithdraw_keeps ok
  | cut => exact Part.queueCut_keeps ok
  | leave part => exact ok.sublist part
  | opens s r a b m from' fits => exact Part.queueGrant_keeps _ _ _ ok
  | declines | closes => exact Part.queueWithdraw_keeps (p := Part.modStream ..) ok
  | cancels => exact ok.sublist List.filter_sublist
  | tears => exact p.applyTeardown_keeps ok
  | ends => exact Part.applyTeardown_keeps _ ok
  | begins =>
    unfold Part.beginTeardown
    split
    · exact Part.applyTeardown_keeps _ ok
    · exact ok
  | heard => simpa using ok
  | exit => simpa using ok
  | winds | forgets | spends | releases | waits | drops | writes | lists | unlists | returns => exact ok

theorem Part.Initial.controlOk {p : Part} (initial : p.Initial) : ControlOk p.control := by
  rw [initial.control]
  intro i
  simp [countOf]

/-- Settles O52: every move keeps the queue. -/
theorem controlQueueKept : Obligations.ControlQueueKept := by
  refine fun _ _ ok stepped => step_keeps (I := fun p => ControlOk p.control) Move.keeps_control (fun loud ok => ?_)
    (fun p => p.powerOnReset_initial.controlOk) ok stepped
  rcases loud.elsewhere with initial | aside
  · exact initial.controlOk
  · exact aside.control ▸ ok

end

/-! ## The completion unit (R146, R148, R156) -/

/-- Every move keeps the pending list within 32 entries and the free slots within the ring. -/
theorem Move.keeps_completions {p q : Part} (move : Move p q) (ok : p.CompletionsOk) : q.CompletionsOk := by
  obtain ⟨listed, free, serial⟩ := ok
  unfold Part.CompletionsOk
  cases move with
  | same same =>
    have config : q.hi.config = p.hi.config := (congrArg HostInterface.config same.face :)
    rw [same.list, same.free, same.serial, config]
    exact ⟨listed, free, serial⟩
  | writes => exact ⟨listed, Nat.le_trans (Nat.sub_le ..) free, Nat.mod_lt _ (by omega)⟩
  | lists record room => exact ⟨Nat.le_trans (Nat.le_of_eq List.length_append) room, free, serial⟩
  | unlists more front short =>
    refine ⟨?_, free, serial⟩
    simp only [front, List.length_cons, List.length_append] at listed ⊢
    omega
  | returns fits => exact ⟨listed, fits, serial⟩
  | declines | closes | cancels | releases => exact ⟨listed, free, serial⟩
  | _ => simpa using ⟨listed, free, serial⟩

theorem Part.Initial.completionsOk {p : Part} (initial : p.Initial) : p.CompletionsOk := by
  simp [Part.CompletionsOk, initial.cq]

/-- Settles O56. -/
theorem completionsKept : Obligations.CompletionsKept := by
  refine fun _ _ ok stepped => step_keeps (I := Part.CompletionsOk) Move.keeps_completions (fun {p q} loud ok => ?_)
    (fun p => p.powerOnReset_initial.completionsOk) ok stepped
  obtain ⟨listed, free, serial⟩ := ok
  rcases loud.elsewhere with initial | aside
  · exact initial.completionsOk
  · refine ⟨aside.list ▸ listed, ?_, aside.serial ▸ serial⟩
    rcases aside.free with ⟨same, config⟩ | full
    · rw [same, config]; exact free
    · exact Nat.le_of_eq full

end Sys2Proof.Machine

/-! PROOF. The invariants of R71 and R81 over the stream accounts and of R54 over the replay list: each move keeps them,
and so every step does. -/

namespace Sys2Proof.Machine

section
variable {p q : Part} {i : Fin 64} {f : StreamEntry → StreamEntry}

/-! ## Entries with one account -/

theorem StreamEntry.account_iff {e e' : StreamEntry} : e.account = e'.account ↔
    e.state = e'.state ∧ e.allotment = e'.allotment ∧ e.credits = e'.credits ∧ e.peerAllotment = e'.peerAllotment
      ∧ e.offer = e'.offer := by
  simp [StreamEntry.account]

/-- An entry that leaves its incarnation is OFFERED or CLOSED, without an allotment. -/
theorem StreamEntry.leave_allotment (e : StreamEntry) : e.leave.allotment = 0 := by
  unfold StreamEntry.leave
  split <;> rfl

/-- What holds of every entry holds after one entry's change, if the changed entry meets it. -/
theorem Part.forall_modStream {P : StreamEntry → Prop} (all : ∀ j, P (p.stream j)) (changed : P (f (p.stream i))) :
    ∀ j, P ((p.modStream i f).stream j) := by
  intro j
  by_cases here : j = i
  · subst here; rwa [Part.stream_modStream_self]
  · rw [Part.stream_modStream_of_ne _ _ here]; exact all j

/-! ## The reserved total -/

/-- The reserved total is the sum of all allotments, within the store. -/
def Part.Summed (p : Part) : Prop :=
  p.ib.reservedTotal = (p.streams.toList.map StreamEntry.allotment).sum ∧ p.ib.reservedTotal ≤ 512

/-- An entry without a reservation has no allotment. -/
def StreamEntry.Bare (e : StreamEntry) : Prop := e.state.reserves = false → e.allotment = 0

theorem Part.reservationsOk_iff : p.ReservationsOk ↔ p.Summed ∧ ∀ j, (p.stream j).Bare := by
  simp only [Part.ReservationsOk, Part.Summed, StreamEntry.Bare, and_assoc]

/-- The sum over a list after one entry's change. -/
theorem sum_map_set {α : Type} (g : α → Nat) (a : α) : ∀ (l : List α) (k : Nat) (inside : k < l.length),
    ((l.set k a).map g).sum + g l[k] = (l.map g).sum + g a
  | x :: l, 0, _ => by
    simp only [List.set_cons_zero, List.map_cons, List.sum_cons, List.getElem_cons_zero]
    omega
  | x :: l, k + 1, inside => by
    have rest := sum_map_set g a l k (Nat.lt_of_succ_lt_succ inside)
    simp only [List.set_cons_succ, List.map_cons, List.sum_cons, List.getElem_cons_succ]
    omega

/-- The allotments of all streams together. -/
def Part.allotments (p : Part) : Nat := (p.streams.toList.map StreamEntry.allotment).sum

theorem Part.allotments_modStream (p : Part) (i : Fin 64) (f : StreamEntry → StreamEntry) :
    (p.modStream i f).allotments + (p.stream i).allotment = p.allotments + (f (p.stream i)).allotment :=
  sum_map_set ..

theorem Part.allotments_congr (same : ∀ j, (q.stream j).allotment = (p.stream j).allotment) :
    q.allotments = p.allotments := by
  refine congrArg List.sum (List.ext_getElem (by simp [Table.length_eq]) fun k inside _ => ?_)
  have bound : k < 64 := by simpa [Table.length_eq] using inside
  simpa [Part.stream, Table.get_eq] using same ⟨k, bound⟩

theorem Part.allotments_eq_zero (none' : ∀ j, (p.stream j).allotment = 0) : p.allotments = 0 := by
  have zero : p.streams.toList.map StreamEntry.allotment = List.replicate 64 0 := by
    refine List.ext_getElem (by simp [Table.length_eq]) fun k inside _ => ?_
    have bound : k < 64 := by simpa [Table.length_eq] using inside
    rw [List.getElem_map, List.getElem_replicate]
    exact none' ⟨k, bound⟩
  rw [Part.allotments, zero, List.sum_replicate_nat, Nat.mul_zero]

theorem Part.Summed.modStream (ok : p.Summed) (kept : (f (p.stream i)).allotment = (p.stream i).allotment) :
    (p.modStream i f).Summed := by
  obtain ⟨total, bound⟩ := ok
  refine ⟨?_, bound⟩
  have changed := p.allotments_modStream i f
  rw [kept] at changed
  exact Eq.trans total (Nat.add_right_cancel changed).symm

/-- A change of one stream's allotment that the reserved total follows. -/
theorem Part.Summed.move (ok : p.Summed) {total : Nat}
    (follows : total + (p.stream i).allotment = p.ib.reservedTotal + (f (p.stream i)).allotment)
    (bound : total ≤ 512) : Part.Summed { p.modStream i f with ib := { p.ib with reservedTotal := total } } := by
  obtain ⟨sum, -⟩ := ok
  refine ⟨?_, bound⟩
  have changed : _ + _ = _ + _ := p.allotments_modStream i f
  show total = (p.modStream i f).allotments
  have sum' : p.ib.reservedTotal = p.allotments := sum
  omega

theorem Part.Summed.release (ok : p.Summed) (i : Fin 64) : (p.release i).Summed := by
  obtain ⟨sum, bound⟩ := ok
  have part : (p.stream i).allotment ≤ p.allotments := by
    have emptied := p.allotments_modStream i fun e => { e with allotment := 0 }
    dsimp only at emptied
    omega
  have sum' : p.ib.reservedTotal = p.allotments := sum
  refine Part.Summed.move ⟨sum, bound⟩ ?_ (Nat.le_trans (Nat.sub_le ..) bound)
  show p.ib.reservedTotal - (p.stream i).allotment + (p.stream i).allotment = p.ib.reservedTotal + 0
  omega

theorem Part.stream_release (p : Part) (i j : Fin 64) : (p.release i).stream j =
    (p.modStream i fun e => { e with allotment := 0, returnBatch := 0, pendingReturns := 0 }).stream j := rfl

/-! ## The moves keep the reservations (R71) -/

theorem Part.ReservationsOk.modStream (ok : p.ReservationsOk)
    (kept : (f (p.stream i)).allotment = (p.stream i).allotment) (bare : (f (p.stream i)).Bare) :
    (p.modStream i f).ReservationsOk := by
  rw [Part.reservationsOk_iff] at ok ⊢
  exact ⟨ok.1.modStream kept, Part.forall_modStream ok.2 bare⟩

theorem Part.ReservationsOk.release (ok : p.ReservationsOk) (i : Fin 64) : (p.release i).ReservationsOk := by
  rw [Part.reservationsOk_iff] at ok ⊢
  exact ⟨ok.1.release i, Part.forall_modStream ok.2 fun _ => rfl⟩

theorem StreamEntry.Bare.congr {e e' : StreamEntry} (same : e'.account = e.account) (bare : e.Bare) : e'.Bare := by
  obtain ⟨state, allotment, -⟩ := StreamEntry.account_iff.1 same
  unfold StreamEntry.Bare
  rwa [state, allotment]

theorem Part.Summed.same (ok : p.Summed) (same : p.Same q) : q.Summed := by
  obtain ⟨sum, bound⟩ := ok
  refine ⟨?_, same.reserved ▸ bound⟩
  rw [same.reserved, sum]
  refine (Part.allotments_congr fun j => ?_).symm
  obtain ⟨-, allotment, -⟩ := StreamEntry.account_iff.1 (same.accounts j)
  exact allotment

theorem Part.ReservationsOk.same (ok : p.ReservationsOk) (same : p.Same q) : q.ReservationsOk := by
  rw [Part.reservationsOk_iff] at ok ⊢
  exact ⟨ok.1.same same, fun j => (ok.2 j).congr (same.accounts j)⟩

theorem Part.ReservationsOk.congr (ok : p.ReservationsOk) (streams : q.streams = p.streams)
    (total : q.ib.reservedTotal = p.ib.reservedTotal) : q.ReservationsOk := by
  unfold Part.ReservationsOk Part.stream
  rwa [streams, total]

theorem Part.stream_initial (streams : p.streams = .fill 64 {}) (j : Fin 64) : p.stream j = {} := by
  rw [Part.stream, streams, Table.get_fill]

theorem Part.ReservationsOk.initial (streams : p.streams = .fill 64 {}) (total : p.ib.reservedTotal = 0) :
    p.ReservationsOk := by
  have entry (j) : (p.stream j).allotment = 0 := by rw [Part.stream_initial streams]
  refine ⟨?_, by omega, fun j _ => entry j⟩
  exact total.trans (Part.allotments_eq_zero entry).symm

/-- A stream without an allotment leaves its incarnation. -/
theorem Part.ReservationsOk.leave (ok : p.ReservationsOk) (none' : (p.stream i).allotment = 0) :
    (p.modStream i StreamEntry.leave).ReservationsOk :=
  ok.modStream (by rw [none', StreamEntry.leave_allotment]) fun _ => StreamEntry.leave_allotment _

theorem Part.reportClose_same (p : Part) (i : Fin 64) (status : Status) : p.Same (p.reportClose i status) :=
  .of_frame (by simp) (by simp)

theorem Part.ReservationsOk.exitTest (ok : p.ReservationsOk) (i : Fin 64) : (p.exitTest i).ReservationsOk := by
  unfold Part.exitTest
  dsimp only
  split
  · rename_i closing
    split
    · exact (ok.leave (ok.2.2 i (by rw [closing]; rfl))).same (Part.reportClose_same _ i .ok)
    · exact ok
  · have left := (ok.release i).leave (i := i) (by rw [Part.stream_release, Part.stream_modStream_self])
    split
    · split
      · exact left.same (Part.reportClose_same _ i .ok)
      · exact left.same (Part.modStream_same _ (by intro; rfl))
    · exact ok
  · exact ok

/-! ## What a GRANT does to the account -/

theorem Part.Same.refl (p : Part) : p.Same p := .of_frame ⟨rfl, rfl, rfl, rfl, rfl, rfl, rfl⟩ ⟨rfl, rfl⟩

/-- A GRANT opens or offers its stream, adds to the credits of one that is open or offered, or changes the offer. -/
theorem Part.takeGrant_cases (p : Part) (i : Fin 64) (g : GrantParcel) :
    p.Same (p.takeGrant i g)
      ∨ (GrantValid g = true ∧ ∃ entered : StreamState,
          ((p.stream i).state = .closed ∧ entered = .offered ∨ (p.stream i).state = .localOpen ∧ entered = .opened)
            ∧ p.takeGrant i g = p.modStream i fun e => e.withGrant entered g)
      ∨ (∃ n, ((p.stream i).state = .offered ∨ (p.stream i).state = .opened)
          ∧ (p.modStream i fun e => { e with credits := min (p.stream i).peerAllotment n }).Same (p.takeGrant i g))
      ∨ (∃ o : Offer, o.credits ≤ o.allotment
          ∧ (GrantValid g = true ∧ o.allotment = g.allotment
              ∨ ∃ saved ∈ (p.stream i).offer, o.allotment = saved.allotment)
          ∧ (p.modStream i fun e => { e with offer := some o }).Same (p.takeGrant i g)) := by
  have added (state : (p.stream i).state = .offered ∨ (p.stream i).state = .opened) :
      ∃ n, ((p.stream i).state = .offered ∨ (p.stream i).state = .opened)
        ∧ (p.modStream i fun e => { e with credits := min (p.stream i).peerAllotment n }).Same
            (p.addCredits i g.credits) := by
    refine ⟨(p.stream i).credits + g.credits, state, ?_⟩
    unfold Part.addCredits
    dsimp only
    split
    · exact Part.streamProtocolError_same ..
    · exact .refl _
  have saved (valid : GrantValid g = true) :
      ∃ o : Offer, o.credits ≤ o.allotment
          ∧ (GrantValid g = true ∧ o.allotment = g.allotment
              ∨ ∃ saved ∈ (p.stream i).offer, o.allotment = saved.allotment)
          ∧ (p.modStream i fun e => { e with offer := some o }).Same (p.saveOffer i g) := by
    have within : g.credits ≤ g.allotment := by
      simp only [GrantValid, Bool.and_eq_true, decide_eq_true_eq] at valid
      omega
    unfold Part.saveOffer
    split
    · exact ⟨⟨g.allotment, g.credits, g.maxMessage⟩, within, .inl ⟨valid, rfl⟩, .refl _⟩
    · rename_i o offered
      refine ⟨{ o with credits := min o.allotment (o.credits + g.credits) }, Nat.min_le_left .., ?_⟩
      refine ⟨.inr ⟨o, offered, rfl⟩, ?_⟩
      dsimp only
      split
      · exact Part.streamProtocolError_same ..
      · exact .refl _
  unfold Part.takeGrant
  dsimp only
  split
  · exact .inl (.refl p)
  · split
    · exact .inl (Part.streamProtocolError_same ..)
    · rename_i valid
      rw [Bool.not_eq_true', Bool.not_eq_false] at valid
      split
      · exact .inl (Part.streamProtocolError_same ..)
      · split
        · exact .inr (.inl ⟨valid, .offered, .inl ⟨‹_›, rfl⟩, rfl⟩)
        · exact .inr (.inl ⟨valid, .opened, .inr ⟨‹_›, rfl⟩, rfl⟩)
        · exact .inr (.inr (.inl (added (.inl ‹_›))))
        · exact .inr (.inr (.inl (added (.inr ‹_›))))
        all_goals exact .inr (.inr (.inr (saved valid)))

/-! ## The moves keep the reservations (R71), continued -/

theorem Part.ReservationsOk.takeGrant (ok : p.ReservationsOk) (i : Fin 64) (g : GrantParcel) :
    (p.takeGrant i g).ReservationsOk := by
  have bare : (p.stream i).Bare := ok.2.2 i
  rcases p.takeGrant_cases i g with
    same | ⟨-, entered, states, taken⟩ | ⟨n, -, same⟩ | ⟨o, -, -, same⟩
  · exact ok.same same
  · rw [taken]
    refine ok.modStream rfl fun unreserved => ?_
    rcases states with ⟨closed, -⟩ | ⟨-, opened⟩
    · exact bare (by rw [closed]; rfl)
    · rw [StreamEntry.withGrant, opened] at unreserved; cases unreserved
  · exact Part.ReservationsOk.same (ok.modStream rfl bare) same
  · exact Part.ReservationsOk.same (ok.modStream rfl bare) same

/-- A teardown that is applied: every entry is torn down, and the allotments go back. -/
theorem Part.applyTeardown_cases (p : Part) : p.applyTeardown = p
    ∨ p.applyTeardown.streams = p.streams.map StreamEntry.teardown
      ∧ p.applyTeardown.ib.reservedTotal = p.ib.reservedTotal - (p.streams.toList.map StreamEntry.allotment).sum := by
  unfold Part.applyTeardown
  split
  · refine .inr ?_
    have kept : p.teardownDelivery.teardownCommand.teardownContexts.streams = p.streams := by simp
    have total : p.teardownDelivery.teardownCommand.teardownContexts.ib = p.ib := by simp
    simp only [Part.afterTeardown_frame, Part.teardownUnits, Part.teardownSequencing_streams,
      Part.teardownSequencing_ib,
      Part.teardownTransmitter, Part.teardownStreams, kept, total, and_self]
  · exact .inl rfl

theorem StreamEntry.teardown_allotment (e : StreamEntry) : e.teardown.allotment = 0 := by
  unfold StreamEntry.teardown
  split <;> rfl

theorem Part.ReservationsOk.applyTeardown (ok : p.ReservationsOk) : p.applyTeardown.ReservationsOk := by
  rcases p.applyTeardown_cases with same | ⟨streams, total⟩
  · rwa [same]
  · have entry (j) : (p.applyTeardown.stream j).allotment = 0 := by
      rw [Part.stream, streams, Table.get_map, StreamEntry.teardown_allotment]
    refine ⟨?_, ?_, fun j _ => entry j⟩
    · rw [total, ok.1, Nat.sub_self]
      exact (Part.allotments_eq_zero entry).symm
    · rw [total, ok.1, Nat.sub_self]; omega

/-- A stream without an allotment is opened with one that the store has room for. -/
theorem Part.ReservationsOk.openStream (ok : p.ReservationsOk) (s : Fin 4) (r : Fin 8) (a b m : Nat)
    (from' : (p.stream i).state = .closed ∨ (p.stream i).state = .offered) (fits : p.ib.reservedTotal + a ≤ 512) :
    (p.openStream i s r a b m).ReservationsOk := by
  have none' : (p.stream i).allotment = 0 := by
    rcases from' with closed | offered
    · exact ok.2.2 i (by rw [closed]; rfl)
    · exact ok.2.2 i (by rw [offered]; rfl)
  let entered : StreamState := if (p.stream i).state = .offered then .opened else .localOpen
  have reserves : entered.reserves = true := by unfold entered; split <;> rfl
  let f : StreamEntry → StreamEntry := fun e =>
    { e with
      state := entered, sendRing := s, landingRing := r, maxInbound := m, allotment := a, returnBatch := b
      occupancy := 0, pendingReturns := 0 }
  rw [Part.reservationsOk_iff] at ok
  have reserved : Part.ReservationsOk
      { p.modStream i f with ib := { p.ib with reservedTotal := p.ib.reservedTotal + a } } := by
    rw [Part.reservationsOk_iff]
    refine ⟨ok.1.move (by rw [none']; rfl) fits, Part.forall_modStream (p := p) ok.2 fun unreserved => ?_⟩
    rw [reserves] at unreserved
    cases unreserved
  refine reserved.congr ?_ ?_
  · simp only [Part.openStream, Part.queueGrant_frame]
    simp [Part.reserve, Part.modStream, Table.modify, f, entered]
  · simp only [Part.openStream, Part.queueGrant_frame]
    rfl

/-- A stream that closes gives its allotment back as it loses its reservation. -/
theorem Part.ReservationsOk.closes (ok : p.ReservationsOk) (i : Fin 64) :
    (((p.startClosing i).discardQueue i).release i).ReservationsOk := by
  have same := (p.startClosing i).discardQueue_same i
  rw [Part.reservationsOk_iff] at ok ⊢
  obtain ⟨summed, bare⟩ := ok
  have closing : (p.startClosing i).Summed := summed.modStream (i := i) (f := fun e =>
    { e with state := .closing, closeWaiting := true, peerAllotment := 0, peerMaxMessage := 0, credits := 0 }) rfl
  refine ⟨(closing.same same).release i, fun j => ?_⟩
  by_cases here : j = i
  · subst here
    rw [Part.stream_release, Part.stream_modStream_self]
    exact fun _ => rfl
  · rw [Part.stream_release, Part.stream_modStream_of_ne _ _ here]
    refine StreamEntry.Bare.congr ?_ (bare j)
    rw [same.accounts, Part.startClosing]
    exact congrArg StreamEntry.account (Part.stream_modStream_of_ne p _ here)

/-- Every move keeps the reservations as R71 says. -/
theorem Move.keeps_reservations (move : Move p q) (ok : p.ReservationsOk) : q.ReservationsOk := by
  cases move with
  | same same => exact ok.same same
  | exit i => exact ok.exitTest i
  | grant i a c m => exact ok.congr (by simp) (by simp)
  | cut i => exact ok.congr (by simp) (by simp)
  | withdraw | leave | writes | lists | unlists | returns => exact ok
  | opens s r a b m from' fits => exact ok.openStream s r a b m from' fits
  | heard i g => exact ok.takeGrant i g
  | winds i => exact ok.modStream rfl fun unreserved => by cases unreserved
  | forgets i => exact ok.modStream rfl (ok.2.2 i)
  | spends i => exact ok.modStream rfl (ok.2.2 i)
  | @declines i offered =>
    have none' := ok.2.2 i (by rw [offered]; rfl)
    exact ok.modStream (i := i) (f := fun e =>
      { e with state := .closing, closeWaiting := true, peerAllotment := 0, peerMaxMessage := 0, credits := 0 })
      rfl fun _ => none'
  | closes i => exact ok.closes i
  | releases i => exact ok.release i
  | @waits i disrupted => exact ok.modStream rfl fun _ => ok.2.2 i (by rw [disrupted]; rfl)
  | @drops i disrupted => exact ok.leave (ok.2.2 i (by rw [disrupted]; rfl))
  | cancels i =>
    refine (ok.release i).modStream (p := (p.removeGrant i).release i) ?_ fun _ => rfl
    rw [Part.stream_release, Part.stream_modStream_self]
    rfl
  | tears => exact ok.applyTeardown
  | ends =>
    exact (ok.congr rfl rfl : Part.ReservationsOk { p with lk := { p.lk with transmission := none } }).applyTeardown
  | begins cause kept =>
    unfold Part.beginTeardown
    split
    · exact (ok.congr rfl rfl : Part.ReservationsOk { p with lk := { p.lk with
        teardown := some ⟨cause, decide (cause = .stopped), kept⟩ } }).applyTeardown
    · exact ok

/-- Settles O53: every move keeps the reservations. -/
theorem reservationsKept : Obligations.ReservationsKept := by
  refine fun _ _ ok stepped => step_keeps (I := Part.ReservationsOk) Move.keeps_reservations (fun loud ok => ?_)
    (fun p => .initial rfl rfl) ok stepped
  rcases loud.elsewhere with initial | aside
  · exact .initial initial.streams (by rw [initial.ib])
  · exact ok.congr aside.streams (by rw [aside.ib])

/-! ## The moves keep the credits (R81) -/

theorem StreamEntry.CreditsOk.congr {e e' : StreamEntry} (ok : e.CreditsOk) (same : e'.account = e.account) :
    e'.CreditsOk := by
  obtain ⟨state, -, credits, peer, offer⟩ := StreamEntry.account_iff.1 same
  unfold StreamEntry.CreditsOk
  rwa [state, credits, peer, offer]

theorem StreamEntry.CreditsOk.leave {e : StreamEntry} (ok : e.CreditsOk) : e.leave.CreditsOk := by
  unfold StreamEntry.leave
  split
  · rename_i o offered
    obtain ⟨within, bound⟩ := ok.2.2.2 o offered
    exact ⟨within, bound, fun _ other => absurd rfl other, nofun⟩
  · exact ⟨Nat.le_refl _, Nat.zero_le _, fun _ _ => rfl, nofun⟩

theorem StreamEntry.CreditsOk.teardown (e : StreamEntry) : e.teardown.CreditsOk := by
  unfold StreamEntry.teardown
  split <;> exact ⟨Nat.le_refl _, Nat.zero_le _, fun _ _ => rfl, nofun⟩

theorem Part.CreditsOk.same (ok : p.CreditsOk) (same : p.Same q) : q.CreditsOk :=
  fun j => (ok j).congr (same.accounts j)

theorem Part.CreditsOk.modStream (ok : p.CreditsOk) (changed : (f (p.stream i)).CreditsOk) :
    (p.modStream i f).CreditsOk := Part.forall_modStream ok changed

theorem Part.CreditsOk.congr (ok : p.CreditsOk) (streams : q.streams = p.streams) : q.CreditsOk := by
  unfold Part.CreditsOk Part.stream
  rwa [streams]

theorem Part.CreditsOk.initial (streams : p.streams = .fill 64 {}) : p.CreditsOk := by
  intro j
  rw [Part.stream_initial streams]
  exact ⟨Nat.le_refl _, Nat.zero_le _, fun _ _ => rfl, nofun⟩

theorem Part.CreditsOk.release (ok : p.CreditsOk) (i : Fin 64) : (p.release i).CreditsOk :=
  Part.CreditsOk.modStream (i := i) (f := fun e => { e with allotment := 0, returnBatch := 0, pendingReturns := 0 })
    ok (ok i)

/-- A stream that starts to close keeps no credits. -/
theorem Part.CreditsOk.startClosing (ok : p.CreditsOk) (i : Fin 64) : (p.startClosing i).CreditsOk :=
  Part.CreditsOk.modStream (i := i) (f := fun e =>
    { e with state := .closing, closeWaiting := true, peerAllotment := 0, peerMaxMessage := 0, credits := 0 }) ok
    ⟨Nat.le_refl _, Nat.zero_le _, fun _ _ => rfl, (ok i).2.2.2⟩

theorem Part.CreditsOk.exitTest (ok : p.CreditsOk) (i : Fin 64) : (p.exitTest i).CreditsOk := by
  unfold Part.exitTest
  dsimp only
  split
  · split
    · exact (ok.modStream (i := i) (ok i).leave).same (Part.reportClose_same _ i .ok)
    · exact ok
  · have left := (ok.release i).modStream (i := i) (ok.release i i).leave
    split
    · split
      · exact left.same (Part.reportClose_same _ i .ok)
      · exact left.same (Part.modStream_same _ (by intro; rfl))
    · exact ok
  · exact ok

theorem Part.CreditsOk.takeGrant (ok : p.CreditsOk) (i : Fin 64) (g : GrantParcel) : (p.takeGrant i g).CreditsOk := by
  obtain ⟨within, bound, none', offers⟩ := ok i
  have ranges (valid : GrantValid g = true) : g.credits ≤ g.allotment ∧ g.allotment ≤ 128 := by
    simp only [GrantValid, Bool.and_eq_true, decide_eq_true_eq] at valid
    omega
  rcases p.takeGrant_cases i g with
    same | ⟨valid, entered, states, taken⟩ | ⟨n, states, same⟩ | ⟨o, credits, allotment, same⟩
  · exact ok.same same
  · rw [taken]
    obtain ⟨credits, allotment⟩ := ranges valid
    refine ok.modStream ⟨credits, allotment, fun notOpen notOffered => ?_, offers⟩
    rcases states with ⟨-, offered⟩ | ⟨-, opened⟩
    · exact absurd offered notOffered
    · exact absurd opened notOpen
  · refine Part.CreditsOk.same (ok.modStream ⟨Nat.min_le_left .., bound, fun notOpen notOffered => ?_, offers⟩) same
    rcases states with offered | opened
    · exact absurd offered notOffered
    · exact absurd opened notOpen
  · refine Part.CreditsOk.same (ok.modStream ⟨within, bound, none', fun o' chosen => ?_⟩) same
    obtain rfl : o = o' := Option.some.inj chosen
    rcases allotment with ⟨valid, granted⟩ | ⟨saved, offered, kept⟩
    · exact ⟨credits, granted ▸ (ranges valid).2⟩
    · exact ⟨credits, kept ▸ (offers saved offered).2⟩

theorem Part.CreditsOk.openStream (ok : p.CreditsOk) (s : Fin 4) (r : Fin 8) (a b m : Nat)
    (from' : (p.stream i).state = .closed ∨ (p.stream i).state = .offered) :
    (p.openStream i s r a b m).CreditsOk := by
  obtain ⟨within, bound, none', offers⟩ := ok i
  let entered : StreamState := if (p.stream i).state = .offered then .opened else .localOpen
  have entry : Part.CreditsOk (p.modStream i fun e =>
      { e with
        state := entered, sendRing := s, landingRing := r, maxInbound := m, allotment := a, returnBatch := b
        occupancy := 0, pendingReturns := 0 }) := by
    refine ok.modStream ⟨within, bound, fun notOpen _ => ?_, offers⟩
    rcases from' with closed | offered
    · exact none' (by rw [closed]; decide) (by rw [closed]; decide)
    · exact absurd (if_pos offered) notOpen
  refine entry.congr ?_
  simp only [Part.openStream, Part.queueGrant_frame]
  simp [Part.reserve, Part.modStream, Table.modify, entered]

theorem Part.CreditsOk.applyTeardown (ok : p.CreditsOk) : p.applyTeardown.CreditsOk := by
  rcases p.applyTeardown_cases with same | ⟨streams, -⟩
  · rwa [same]
  · intro j
    rw [Part.stream, streams, Table.get_map]
    exact .teardown _

/-- Every move keeps the credits as R81 says. -/
theorem Move.keeps_credits (move : Move p q) (ok : p.CreditsOk) : q.CreditsOk := by
  have cleared (e : StreamEntry) : e.cleared.CreditsOk := ⟨Nat.le_refl _, Nat.zero_le _, fun _ _ => rfl, nofun⟩
  cases move with
  | same same => exact ok.same same
  | exit i => exact ok.exitTest i
  | grant i a c m => exact ok.congr (by simp)
  | cut i => exact ok.congr (by simp)
  | withdraw | leave | writes | lists | unlists | returns => exact ok
  | opens s r a b m from' fits => exact ok.openStream s r a b m from'
  | heard i g => exact ok.takeGrant i g
  | winds i => exact ok.modStream ⟨Nat.le_refl _, Nat.zero_le _, fun _ _ => rfl, (ok i).2.2.2⟩
  | forgets i =>
    obtain ⟨within, bound, none', -⟩ := ok i
    exact ok.modStream ⟨within, bound, none', nofun⟩
  | spends i =>
    obtain ⟨within, bound, none', offers⟩ := ok i
    exact ok.modStream ⟨Nat.le_trans (Nat.sub_le ..) within, bound, fun notOpen notOffered => by
      rw [none' notOpen notOffered], offers⟩
  | declines => exact ok.startClosing _
  | closes i => exact ((ok.startClosing i).same (Part.discardQueue_same _ i)).release i
  | releases i => exact ok.release i
  | @waits i disrupted =>
    obtain ⟨within, bound, none', offers⟩ := ok i
    exact ok.modStream ⟨within, bound, fun _ _ => none' (by rw [disrupted]; decide) (by rw [disrupted]; decide), offers⟩
  | @drops i disrupted => exact ok.modStream (ok i).leave
  | cancels i => exact (ok.release i).modStream (p := (p.removeGrant i).release i) (cleared _)
  | tears => exact ok.applyTeardown
  | ends => exact (ok.congr rfl : Part.CreditsOk { p with lk := { p.lk with transmission := none } }).applyTeardown
  | begins cause kept =>
    unfold Part.beginTeardown
    split
    · exact (ok.congr rfl : Part.CreditsOk { p with lk := { p.lk with
        teardown := some ⟨cause, decide (cause = .stopped), kept⟩ } }).applyTeardown
    · exact ok

/-- Settles O54: every move keeps the credits. -/
theorem creditsKept : Obligations.CreditsKept := by
  refine fun _ _ ok stepped => step_keeps (I := Part.CreditsOk) Move.keeps_credits (fun loud ok => ?_)
    (fun p => .initial rfl) ok stepped
  rcases loud.elsewhere with initial | aside
  · exact .initial initial.streams
  · exact ok.congr aside.streams

/-! ## The moves keep the sequencing (R54, R59) -/

/-- Every move keeps the sequencing as R54 and R59 say. -/
theorem Move.keeps_sequencing (move : Move p q) (ok : p.SequencingOk) : q.SequencingOk := by
  cases move with
  | same same => exact same.line ok
  | tears => rwa [ok.applyTeardown]
  | begins cause kept => exact ok.beginTeardown cause kept
  | ends pending =>
    obtain ⟨t, some'⟩ := Option.isSome_iff_exists.1 pending
    refine Part.applyTeardown_line (t := t) some' rfl ok.1 ?_
    refine Option.not_isSome_iff_eq_none.1 fun waits => ?_
    have hello := ok.2.2.2.2.2.2.1 waits
    rw [(ok.2.2.2.2.2.2.2 pending).1] at hello
    cases hello
  | heard i g =>
    rcases p.takeGrant_cases i g with same | ⟨-, entered, -, taken⟩ | ⟨n, -, same⟩ | ⟨o, -, -, same⟩
    · exact same.line ok
    · rw [taken]; exact ok
    · exact same.line ok
    · exact same.line ok
  | exit | grant | cut | opens => exact ok.of_core (by simp) (by simp)
  | withdraw | leave | winds | forgets | spends | declines | closes | releases | waits | drops | cancels => exact ok
  | writes | lists | unlists | returns => exact ok

/-- Settles O55: every move keeps the sequencing. -/
theorem sequencingKept : Obligations.SequencingKept := by
  refine fun _ _ ok stepped => step_keeps (I := Part.SequencingOk) Move.keeps_sequencing (fun loud ok => ?_)
    (fun p => p.powerOnReset_initial.line) ok stepped
  rcases loud.elsewhere with initial | aside
  · exact initial.line
  · exact aside.line ok

/-! ## The state after reset -/

/-- Settles O60. -/
theorem resetMeetsTheInvariants : Obligations.ResetMeetsTheInvariants := by
  refine ⟨fun i => ?_, .initial rfl rfl, .initial rfl, ?_, ?_, ?_, nofun⟩
  · simp [State.reset, countOf]
  · exact ⟨by decide, by decide, rfl, nofun, fun _ => rfl, fun _ => ⟨rfl, rfl⟩, nofun, nofun⟩
  · exact ⟨by decide, by decide, by decide⟩
  · exact ⟨fun _ => rfl, fun _ => rfl, nofun, nofun⟩

end

end Sys2Proof.Machine

/-! PROOF. The host side (R162, R183 to R190): what a command does to HI, what it leaves in FAULT, and when an interrupt
message goes out. -/

namespace Sys2Proof.Machine

/-! ## What a move leaves of HI -/

section
variable {p q m : Part}

/-- A move leaves HI but for its lists of accesses. -/
theorem Move.face (move : Move p q) : q.hi.face = p.hi.face := by
  cases move with
  | same same => exact same.face
  | exit | grant | cut | opens | heard | tears | begins | ends => simp
  | _ => rfl

theorem Part.Reach.face (chain : p.Reach q) : q.hi.face = p.hi.face :=
  chain.keeps (I := fun r => r.hi.face = p.hi.face) (fun move kept => move.face.trans kept) rfl

/-- One HI but for the lists of accesses. -/
theorem HostInterface.face_iff {g h : HostInterface} : g.face = h.face ↔
    g.deviceState = h.deviceState ∧ g.faultCause = h.faultCause ∧ g.enable = h.enable ∧ g.event = h.event
      ∧ g.intMask = h.intMask ∧ g.configLo = h.configLo ∧ g.configHi = h.configHi ∧ g.loadAddress = h.loadAddress
      ∧ g.loadAbandoned = h.loadAbandoned ∧ g.config = h.config ∧ g.interrupts = h.interrupts := by
  simp [HostInterface.face]

/-- The command's effect on the part, of what `exec` answers. -/
theorem effect_of_exec {c : Instr} {s : State} {q : Part} (runs : exec c s = s.become q) :
    q = Instr.effect s.toPart c := by
  rw [exec_eq_effect] at runs
  simp only [State.become, Host.Outcome.next.injEq, State.mk.injEq] at runs
  exact runs.1.symm

/-! ## How the device state and the configuration copy change (R184 to R189) -/

/-- The changes of the device state and the configuration copy that a command may make. -/
def HostInterface.MayBecome (h g : HostInterface) : Prop :=
  (h.deviceState = .disabled → g.deviceState ≠ .running)
    ∧ (h.deviceState = .running → g.deviceState ≠ .loading)
    ∧ (h.deviceState = .fault → g.deviceState = .fault ∨ g.deviceState = .disabled)
    ∧ (g.config = h.config ∨ g.config = {} ∧ g.deviceState = .disabled
        ∨ h.deviceState = .loading ∧ g.deviceState = .running ∧ g.config.valid = true)

/-- A change that keeps both. -/
theorem HostInterface.MayBecome.keep {h g : HostInterface} (state : g.deviceState = h.deviceState)
    (config : g.config = h.config) : h.MayBecome g := by
  refine ⟨fun here => ?_, fun here => ?_, fun here => .inl (state.trans here), .inl config⟩
  · rw [state, here]; exact nofun
  · rw [state, here]; exact nofun

/-- The entry to FAULT keeps the configuration copy. -/
theorem HostInterface.MayBecome.fault {h g : HostInterface} (state : g.deviceState = .fault)
    (config : g.config = h.config) : h.MayBecome g := by
  refine ⟨fun _ => ?_, fun _ => ?_, fun _ => .inl state, .inl config⟩
  · rw [state]; exact nofun
  · rw [state]; exact nofun

theorem HostInterface.MayBecome.reset {h g : HostInterface} (state : g.deviceState = .disabled)
    (config : g.config = {}) : h.MayBecome g := by
  refine ⟨fun _ => ?_, fun _ => ?_, fun _ => .inr state, .inr (.inl ⟨config, state⟩)⟩
  · rw [state]; exact nofun
  · rw [state]; exact nofun

/-- Where a load begins: LOADING, or FAULT at an address that is no multiple of 256. -/
theorem Part.beginLoad_cases (p : Part) :
    p.beginLoad.hi.face = { p.hi.face with
        deviceState := .loading, loadAddress := p.hi.configHi ++ p.hi.configLo, loadAbandoned := false }
      ∨ p.beginLoad = Part.enterFault { p with hi := { p.hi with
          deviceState := .loading, loadAddress := p.hi.configHi ++ p.hi.configLo, loadAbandoned := false } }
          .configInvalid := by
  unfold Part.beginLoad
  dsimp only
  split
  · exact .inl rfl
  · exact .inr rfl

theorem Loud.mayBecome (loud : Loud p q) : p.hi.MayBecome q.hi := by
  cases loud with
  | signals | addresses | abandons | enables => exact .keep rfl rfl
  | faults => exact .fault rfl rfl
  | begins from' =>
    rcases Part.beginLoad_cases { p with hi := { p.hi with enable := true } } with begun | faulted
    · obtain ⟨state, -, -, -, -, -, -, -, -, config, -⟩ := HostInterface.face_iff (h := { p.hi with
        enable := true, deviceState := .loading, loadAddress := p.hi.configHi ++ p.hi.configLo
        loadAbandoned := false }) |>.1 begun
      refine ⟨fun _ => ?_, fun running => ?_, fun fault => ?_, .inl config⟩
      · rw [state]; exact nofun
      · rw [running] at from'; exact absurd from' (by simp)
      · rw [fault] at from'; exact absurd from' (by simp)
    · rw [faulted]; exact .fault rfl rfl
  | disables loading =>
    refine ⟨fun _ => nofun, fun _ => nofun, fun _ => .inr rfl, .inl rfl⟩
  | loads config loading kept valid =>
    refine ⟨fun disabled => ?_, fun _ => nofun, fun fault => ?_, .inr (.inr ⟨loading, rfl, valid⟩)⟩
    · rw [loading] at disabled; cases disabled
    · rw [loading] at fault; cases fault
  | resets => exact .reset rfl rfl

theorem HostInterface.MayBecome.of_face {h h' g : HostInterface} (same : h'.face = h.face) (may : h'.MayBecome g) :
    h.MayBecome g := by
  obtain ⟨state, -, -, -, -, -, -, -, -, config, -⟩ := HostInterface.face_iff.1 same
  unfold HostInterface.MayBecome
  rw [← state, ← config]
  exact may

theorem Part.Does.mayBecome (does : p.Does q) : p.hi.MayBecome q.hi := by
  rcases does with chain | ⟨m, chain, loud⟩
  · obtain ⟨state, -, -, -, -, -, -, -, -, config, -⟩ := HostInterface.face_iff.1 chain.face
    exact .keep state config
  · exact loud.mayBecome.of_face chain.face

/-! ## The interrupt (R162) -/

/-- One message where the condition comes to hold, and none otherwise. -/
def HostInterface.Messages (h g : HostInterface) : Prop :=
  g.interrupts = if !interruptCondition h.event h.intMask && interruptCondition g.event g.intMask then h.interrupts + 1
    else h.interrupts

theorem HostInterface.Messages.keep {h g : HostInterface} (event : g.event = h.event) (mask : g.intMask = h.intMask)
    (sent : g.interrupts = h.interrupts) : h.Messages g := by
  unfold HostInterface.Messages
  rw [event, mask, sent]
  simp

theorem Loud.messages (loud : Loud p q) : p.hi.Messages q.hi := by
  cases loud with
  | addresses | abandons | enables | disables | loads => exact .keep rfl rfl rfl
  | signals | faults => rfl
  | begins from' =>
    rcases Part.beginLoad_cases { p with hi := { p.hi with enable := true } } with begun | faulted
    · obtain ⟨-, -, -, event, mask, -, -, -, -, -, sent⟩ := HostInterface.face_iff (h := { p.hi with
        enable := true, deviceState := .loading, loadAddress := p.hi.configHi ++ p.hi.configLo
        loadAbandoned := false }) |>.1 begun
      exact .keep event mask sent
    · rw [faulted]; rfl
  | resets =>
    have quiet : interruptCondition 0 p.hi.intMask = false := by
      simp [interruptCondition]
    show p.hi.interrupts = if !interruptCondition p.hi.event p.hi.intMask && interruptCondition 0 p.hi.intMask then _ else _
    rw [quiet, Bool.and_false]
    rfl

theorem Part.Does.messages (does : p.Does q) : p.hi.Messages q.hi := by
  rcases does with chain | ⟨m, chain, loud⟩
  · obtain ⟨-, -, -, event, mask, -, -, -, -, -, sent⟩ := HostInterface.face_iff.1 chain.face
    exact .keep event mask sent
  · obtain ⟨-, -, -, event, mask, -, -, -, -, -, sent⟩ := HostInterface.face_iff.1 chain.face
    have messages := loud.messages
    unfold HostInterface.Messages at messages ⊢
    rwa [event, mask, sent] at messages

/-- Settles O59. -/
theorem interruptOnTheEdge : Obligations.InterruptOnTheEdge := by
  intro c s q other runs
  obtain rfl := effect_of_exec runs
  have sent : _ = _ := (Instr.effect_does s.toPart other).messages
  simp only [← interruptCondition_iff, Bool.not_eq_true]
  refine ⟨fun before after => ?_, fun edge => ?_⟩
  · rw [sent, before, after]; rfl
  · rw [sent]
    rcases edge with before | after
    · rw [before]; rfl
    · rw [after, Bool.and_false]; rfl

/-! ## ENABLE and the cause (R183, R184, R187) -/

theorem Part.DeviceOk.of_face (same : q.hi.face = p.hi.face) (ok : p.DeviceOk) : q.DeviceOk := by
  obtain ⟨state, cause, enable, -, -, -, -, -, abandoned, -, -⟩ := HostInterface.face_iff.1 same
  unfold Part.DeviceOk
  rwa [state, cause, enable, abandoned]

theorem Part.enterFault_deviceOk (p : Part) (cause : FaultCause) : (p.enterFault cause).DeviceOk :=
  ⟨fun other => absurd rfl other, nofun, nofun, nofun⟩

theorem Loud.keeps_device (loud : Loud p q) (ok : p.DeviceOk) : q.DeviceOk := by
  obtain ⟨cause, disabled, running, loading⟩ := ok
  cases loud with
  | signals | addresses => exact ⟨cause, disabled, running, loading⟩
  | faults => exact Part.enterFault_deviceOk ..
  | begins from' =>
    have none' : p.hi.faultCause = .none := cause (by rcases from' with h | h <;> rw [h] <;> exact nofun)
    rcases Part.beginLoad_cases { p with hi := { p.hi with enable := true } } with begun | faulted
    · exact Part.DeviceOk.of_face (p := { p with hi := { p.hi with
        enable := true, deviceState := .loading, loadAddress := p.hi.configHi ++ p.hi.configLo
        loadAbandoned := false } }) begun ⟨fun _ => none', nofun, nofun, fun _ _ => rfl⟩
    · rw [faulted]; exact Part.enterFault_deviceOk ..
  | abandons here =>
    refine ⟨cause, fun _ => rfl, fun running => ?_, fun _ => nofun⟩
    rw [show p.hi.deviceState = .running from running] at here
    cases here
  | disables here off => exact ⟨fun _ => cause (by rw [here]; exact nofun), fun _ => off, nofun, nofun⟩
  | loads config here kept =>
    exact ⟨fun _ => cause (by rw [here]; exact nofun), nofun, fun _ => loading here kept, nofun⟩
  | enables enable disabled loading running =>
    exact ⟨cause, disabled, running, fun here _ => loading here⟩
  | resets => exact ⟨fun _ => rfl, fun _ => rfl, nofun, nofun⟩

end

end Sys2Proof.Machine

/-! PROOF. The FAULT state (R189, R190): a part in FAULT changes nothing but what the transceiver and the framer report,
ENABLE and its lists of accesses. -/

namespace Sys2Proof.Machine

section
variable {p q r : Part}

/-- What a part in FAULT keeps. -/
structure Part.Frozen (p q : Part) : Prop where
  cause : q.hi.faultCause = p.hi.faultCause
  sq : q.sq = p.sq
  streams : q.streams = p.streams
  control : q.control = p.control
  ib : q.ib = p.ib
  tx : q.tx = p.tx
  sf : q.sf = p.sf
  dl : q.dl = p.dl
  cq : q.cq = p.cq
  cm : q.cm = p.cm
  rings : q.rings = p.rings
  accesses : ∀ a ∈ q.hi.accesses, a ∈ p.hi.accesses
  lk : ∃ present transmission, q.lk = { p.lk with signalPresent := present, transmission := transmission }
    ∧ (transmission = p.lk.transmission ∨ transmission = none)

/-- A change of HI alone that keeps the cause and issues nothing. -/
theorem Part.Frozen.of_hi {hi : HostInterface} (cause : hi.faultCause = p.hi.faultCause)
    (accesses : ∀ a ∈ hi.accesses, a ∈ p.hi.accesses) : p.Frozen { p with hi := hi } :=
  ⟨cause, rfl, rfl, rfl, rfl, rfl, rfl, rfl, rfl, rfl, rfl, accesses, _, _, rfl, .inl rfl⟩

theorem Part.Frozen.refl (p : Part) : p.Frozen p := .of_hi rfl fun _ => id

theorem Part.Frozen.trans (first : p.Frozen q) (then' : q.Frozen r) : p.Frozen r := by
  obtain ⟨present, transmission, lk, kept⟩ := first.lk
  obtain ⟨present', transmission', lk', kept'⟩ := then'.lk
  refine ⟨then'.cause.trans first.cause, then'.sq.trans first.sq, then'.streams.trans first.streams,
    then'.control.trans first.control, then'.ib.trans first.ib, then'.tx.trans first.tx, then'.sf.trans first.sf,
    then'.dl.trans first.dl, then'.cq.trans first.cq, then'.cm.trans first.cm, then'.rings.trans first.rings,
    fun a listed => first.accesses a (then'.accesses a listed), present', transmission', ?_, ?_⟩
  · rw [lk', lk]
  · rcases kept' with same | gone
    · rw [same, lk]; exact kept
    · exact .inr gone

/-- An operation that leaves the part as it is. -/
theorem Part.Frozen.of_eq (same : q = p) : p.Frozen q := same ▸ .refl p

/-! ## What does nothing outside RUNNING -/

theorem Part.running_of_fault (fault : p.hi.deviceState = .fault) : p.running = false := by
  simp [Part.running, fault]

theorem Part.settle_of_not_running (stopped : p.running = false) : p.settle = p := by
  simp [Part.settle, settleOffers, stopped]

theorem Part.settle_frozen (fault : p.hi.deviceState = .fault) : p.Frozen p.settle :=
  .of_eq (p.settle_of_not_running (Part.running_of_fault fault))

theorem Part.onAccessEnd_frozen (k : AccessKind) {st : DeviceState} {deliver : Part → Part}
    (fault : p.hi.deviceState = .fault) (other : st ≠ .fault) : p.Frozen (p.onAccessEnd k st deliver) := by
  unfold Part.onAccessEnd
  split
  · exact .refl p
  · split
    · rename_i here
      exact absurd (here.symm.trans fault) other
    · exact .of_hi rfl fun a listed => (List.mem_filter.1 listed).1

theorem Part.onReadEnd_frozen (k : AccessKind) (result : ReadEnd) {st : DeviceState} {deliver : Part → Part}
    (fault : p.hi.deviceState = .fault) (other : st ≠ .fault) : p.Frozen (p.onReadEnd k result st deliver) := by
  unfold Part.onReadEnd
  split
  · exact .refl p
  · split
    · exact Part.onAccessEnd_frozen k fault other
    · exact .refl p

theorem Part.custodyWriteEnds_frozen (ring : RingId) (ok : Bool) (fault : p.hi.deviceState = .fault) :
    p.Frozen (p.custodyWriteEnds ring ok) := by
  unfold Part.custodyWriteEnds
  exact Part.onAccessEnd_frozen _ fault nofun

theorem Part.landingWriteEnds_frozen (r : Fin 8) (k : Nat) (ok : Bool) (fault : p.hi.deviceState = .fault) :
    p.Frozen (p.landingWriteEnds r k ok) := by
  unfold Part.landingWriteEnds
  exact Part.onAccessEnd_frozen _ fault nofun

theorem Part.snapshotWriteEnds_frozen (ok : Bool) (fault : p.hi.deviceState = .fault) :
    p.Frozen (p.snapshotWriteEnds ok) := by
  unfold Part.snapshotWriteEnds
  exact Part.onAccessEnd_frozen _ fault nofun

theorem Part.completionWriteEnds_frozen (ok : Bool) (fault : p.hi.deviceState = .fault) :
    p.Frozen (p.completionWriteEnds ok) := by
  unfold Part.completionWriteEnds
  exact Part.onAccessEnd_frozen _ fault nofun

theorem Part.recordArrives_frozen (copy : Copy) (fault : p.hi.deviceState = .fault) :
    p.Frozen (p.recordArrives copy) := by
  unfold Part.recordArrives
  exact Part.onAccessEnd_frozen _ fault nofun

theorem Part.accessFails_frozen (kind : AccessKind) (fault : p.hi.deviceState = .fault) :
    p.Frozen (p.accessFails kind) := by
  cases kind with
  | configRead => exact Part.onReadEnd_frozen (st := .loading) _ _ fault nofun
  | ringRead | gatherRead | refetchRead => exact Part.onReadEnd_frozen (st := .running) _ _ fault nofun
  | custodyWrite ring => exact Part.custodyWriteEnds_frozen ring false fault
  | landingWrite r k => exact Part.landingWriteEnds_frozen r k false fault
  | snapshotWrite => exact Part.snapshotWriteEnds_frozen false fault
  | completionWrite => exact Part.completionWriteEnds_frozen false fault

theorem Part.oldAccessEnds_frozen (access : OldAccess) : p.Frozen (p.oldAccessEnds access) := by
  cases access <;> exact .of_hi rfl fun _ => id

theorem Part.accessTimesOut_frozen (access : AccessRef) (fault : p.hi.deviceState = .fault) :
    p.Frozen (p.accessTimesOut access) := by
  cases access with
  | live kind =>
    simp only [Part.accessTimesOut]
    split
    · exact .refl p
    · rename_i a _
      exact Part.Frozen.trans (q := p.expectLate a) (.of_hi rfl fun _ => id) (Part.accessFails_frozen kind fault)
  | stale k =>
    simp only [Part.accessTimesOut]
    split
    · exact .refl p
    · exact (Part.oldAccessEnds_frozen (.stale k)).trans (.of_hi rfl fun _ => id)

theorem Part.notify_frozen (value : BitVec 32) (fault : p.hi.deviceState = .fault) : p.Frozen (p.notify value) :=
  .of_eq (Part.notify_of_not_running (by rw [fault]; exact nofun))

/-- A write to CONTROL changes ENABLE alone, or is a reset. -/
theorem Part.writeControl_frozen (value : BitVec 32) (fault : p.hi.deviceState = .fault)
    (stays : (p.writeControl value).hi.deviceState = .fault) : p.Frozen (p.writeControl value) := by
  unfold Part.writeControl at stays ⊢
  dsimp only at stays ⊢
  split
  · rename_i resets
    rw [if_pos resets] at stays
    cases stays
  · split
    · exact .refl p
    · rw [fault]
      exact .of_hi rfl fun _ => id

theorem Part.writeRegister_frozen (offset : BitVec 12) (value : BitVec 32) (fault : p.hi.deviceState = .fault)
    (stays : (p.writeRegister offset value).hi.deviceState = .fault) : p.Frozen (p.writeRegister offset value) := by
  unfold Part.writeRegister at stays ⊢
  split
  · rename_i control
    simp only [control] at stays
    exact Part.writeControl_frozen value fault stays
  · exact .of_hi rfl fun _ => id
  · exact .of_hi rfl fun _ => id
  · exact .of_hi rfl fun _ => id
  · exact .of_hi rfl fun _ => id
  · exact Part.notify_frozen value fault
  · exact .refl p

/-! ## What does nothing while the link is OFFLINE and quiet -/

theorem Part.listens_of_offline (offline : p.lk.state = .offline) : p.listens = false := by
  simp [Part.listens, offline]

theorem Part.sequencedArrives_frozen (n : Seq) (deliver : Part → Part) (offline : p.lk.state = .offline) :
    p.Frozen (p.sequencedArrives n deliver) := by
  refine .of_eq ?_
  unfold Part.sequencedArrives
  rw [Part.listens_of_offline offline]
  rfl

theorem Part.badArrives_frozen (offline : p.lk.state = .offline) : p.Frozen p.badArrives := by
  refine .of_eq ?_
  unfold Part.badArrives
  rw [offline]

theorem Part.helloArrives_frozen (h : HelloParcel) (offline : p.lk.state = .offline) : p.Frozen (p.helloArrives h) := by
  refine .of_eq ?_
  unfold Part.helloArrives
  rw [offline]

theorem Part.parcelArrives_frozen (parcel : Parcel) (offline : p.lk.state = .offline) :
    p.Frozen (p.parcelArrives parcel) := by
  cases parcel with
  | data n d =>
    simp only [Part.parcelArrives, Part.dataArrives]
    split
    · exact Part.sequencedArrives_frozen n _ offline
    · exact Part.badArrives_frozen offline
  | grant | withdraw | cut | void =>
    simp only [Part.parcelArrives, Part.grantArrives, Part.withdrawArrives, Part.cutArrives, Part.voidArrives]
    exact Part.sequencedArrives_frozen _ _ offline
  | ack n => exact .of_eq (by simp [Part.parcelArrives, Part.ackArrives, Part.listens_of_offline offline])
  | retry n => exact .of_eq (by simp [Part.parcelArrives, Part.retryArrives, Part.listens_of_offline offline])
  | hello h => exact Part.helloArrives_frozen h offline

theorem Part.bytesArrive_frozen (bytes : List Byte) (offline : p.lk.state = .offline) :
    p.Frozen (p.bytesArrive bytes) := by
  unfold Part.bytesArrive
  split
  · exact Part.parcelArrives_frozen _ offline
  · exact Part.badArrives_frozen offline

theorem Part.applyTeardown_of_none (none' : p.lk.teardown = none) : p.applyTeardown = p := by
  unfold Part.applyTeardown
  rw [none']

/-- The framer becomes free, and nothing waits for that. -/
theorem Part.transmissionEnds_frozen (teardown : p.lk.teardown = none) (exit : p.lk.helloExit = none) :
    p.Frozen p.transmissionEnds := by
  unfold Part.transmissionEnds
  split
  · exact .refl p
  · simp only [teardown, exit, Option.isSome_none, Bool.false_eq_true, if_false]
    refine ⟨rfl, rfl, rfl, rfl, rfl, rfl, rfl, rfl, rfl, rfl, rfl, fun _ => id, p.lk.signalPresent, none, ?_, .inr rfl⟩
    simp only [teardown, exit]

theorem Part.signalAcquired_of_offline (offline : p.lk.state = .offline) :
    p.signalAcquired = { p with lk := { p.lk with signalPresent := true } } := by
  simp [Part.signalAcquired, offline]

theorem Part.signalLost_of_offline (offline : p.lk.state = .offline) :
    p.signalLost = { p with lk := { p.lk with signalPresent := false } } := by
  simp [Part.signalLost, offline]

theorem Part.Frozen.of_signal (present : Bool) : p.Frozen { p with lk := { p.lk with signalPresent := present } } :=
  ⟨rfl, rfl, rfl, rfl, rfl, rfl, rfl, rfl, rfl, rfl, rfl, fun _ => id, present, p.lk.transmission, rfl, .inl rfl⟩

theorem Part.mayTransmit_of_fault (fault : p.hi.deviceState = .fault) : p.mayTransmit = false := by
  simp [Part.mayTransmit, Part.running_of_fault fault]

end

/-! ## The rows of the table -/

/-- A part in FAULT that stays there keeps every unit but LK's reports and HI's registers. -/
theorem Instr.effect_frozen {p : Part} (c : Instr) (fault : p.hi.deviceState = .fault) (quiet : p.FaultOk)
    (stays : (Instr.effect p c).hi.deviceState = .fault) : p.Frozen (Instr.effect p c) := by
  obtain ⟨offline, helloTimer, holdoffTimer, teardown, exit, replay, replayTimer, ackTimer, holdoff, gaps⟩ := quiet fault
  have still := Part.running_of_fault fault
  have shut := Part.mayTransmit_of_fault fault
  cases c with
  | powerOnReset => cases stays
  | controlReset value | controlEnable value | controlDisable value => exact Part.writeControl_frozen value fault stays
  | eventWrite value | intMaskWrite value => exact .of_hi rfl fun _ => id
  | registerWriteOther offset value => exact Part.writeRegister_frozen offset value fault stays
  | ringNotify value | completionReturn value | notifyInvalidSelector value => exact Part.notify_frozen value fault
  | configReadEnd => exact Part.onReadEnd_frozen (st := .loading) _ _ fault nofun
  | gatherReadEnd | refetchEnd | ringReadEnd => exact Part.onReadEnd_frozen (st := .running) _ _ fault nofun
  | custodyWriteEnd ring ok => exact Part.custodyWriteEnds_frozen ring ok fault
  | snapshotWriteEnd ok => exact Part.snapshotWriteEnds_frozen ok fault
  | landingWriteEnd ring k ok => exact Part.landingWriteEnds_frozen ring k ok fault
  | completionWriteEnd ok => exact Part.completionWriteEnds_frozen ok fault
  | sendHeadRecord | sendFragmentRecord | strayRecord | landingRecord | linkStart | linkStop | streamOpen | streamClose
  | streamQuery | linkQuery | setTimers | unknownCommand => exact Part.recordArrives_frozen _ fault
  | hostAccessTimeout access => exact Part.accessTimesOut_frozen access fault
  | staleAccessEnd access => exact Part.oldAccessEnds_frozen access
  | signalAcquired =>
    rw [Instr.effect, Part.signalAcquired_of_offline offline]
    exact .of_signal true
  | signalLost =>
    rw [Instr.effect, Part.signalLost_of_offline offline]
    exact .of_signal false
  | dataArrival n d => exact Part.parcelArrives_frozen (.data n d) offline
  | grantArrival n g => exact Part.parcelArrives_frozen (.grant n g) offline
  | withdrawArrival n stream => exact Part.parcelArrives_frozen (.withdraw n stream) offline
  | cutArrival n stream => exact Part.parcelArrives_frozen (.cut n stream) offline
  | voidArrival n => exact Part.parcelArrives_frozen (.void n) offline
  | ackArrival n => exact Part.parcelArrives_frozen (.ack n) offline
  | retryArrival n => exact Part.parcelArrives_frozen (.retry n) offline
  | helloArrival h => exact Part.helloArrives_frozen h offline
  | badParcel bytes => exact Part.bytesArrive_frozen bytes offline
  | helloTimerExpiry => exact .of_eq (by simp [Instr.effect, Part.helloExpiry, offline])
  | holdoffTimerExpiry => exact .of_eq (by simp [Instr.effect, Part.holdoffExpiry, offline])
  | ackDelayExpiry => exact .of_eq (by simp [Instr.effect, Part.ackDelayExpires, ackTimer, Timer.isRunning])
  | replayTimerExpiry => exact .of_eq (by simp [Instr.effect, Part.replayExpiry, replayTimer, Timer.isRunning])
  | gapTimerExpiry ring =>
    have idle : p.gapExpiry ring = p := by simp [Part.gapExpiry, gaps ring, Timer.isRunning]
    exact .of_eq (by rw [Instr.effect, idle, Part.settle_of_not_running still])
  | interruptHoldoffExpiry => exact .of_eq (by simp [Instr.effect, Part.holdoffExpires, holdoff, Timer.isRunning])
  | teardownApply =>
    exact .of_eq (by rw [Instr.effect, Part.applyTeardown_of_none teardown, Part.settle_of_not_running still])
  | sendHello => exact .of_eq (by simp [Instr.effect, Part.sendHello, Part.helloReady, shut])
  | sendPendingNote => exact .of_eq (by simp [Instr.effect, Part.sendNote, Part.noteReady, shut])
  | sendReplay => exact .of_eq (by simp [Instr.effect, Part.sendReplay, Part.replayReady, shut])
  | sendControlParcel =>
    have none' : p.sendControl = p := by simp [Part.sendControl, Part.controlReady, shut]
    exact .of_eq (by rw [Instr.effect, none', Part.settle_of_not_running still])
  | sendDataParcel => exact .of_eq (by simp [Instr.effect, Part.sendData, Part.stagedReady, shut])
  | transmissionEnd =>
    obtain ⟨state, -⟩ := HostInterface.face_iff.1 p.transmissionEnds_reach.face
    exact (Part.transmissionEnds_frozen teardown exit).trans (Part.settle_frozen (state.trans fault))
  | dataPick => exact .of_eq (by simp [Instr.effect, Part.pick, Part.mayPick, still])
  | refetchStart => exact .of_eq (by simp [Instr.effect, Part.refetch, Part.mayRefetch, still])
  | heldRingRead ring => exact .of_eq (by simp [Instr.effect, Part.heldRead, still])
  | deliveryTake => exact .of_eq (by simp [Instr.effect, Part.deliveryTakes, still])
  | completionWriteBegin => exact .of_eq (by simp [Instr.effect, Part.writeNext, Part.mayWrite, still])

/-- Settles O58: the changes of HI one by one, and the freeze in FAULT command by command. -/
theorem deviceStateTransitions : Obligations.DeviceStateTransitions := by
  refine ⟨fun c s q runs => ?_, fun c s q fault quiet runs stays => ?_⟩
  · obtain rfl := effect_of_exec runs
    by_cases power : c = .powerOnReset
    · subst power
      exact HostInterface.MayBecome.reset (h := s.hi) (g := (Part.powerOnReset s.toPart).hi) rfl rfl
    · exact (Instr.effect_does s.toPart power).mayBecome
  · obtain rfl := effect_of_exec runs
    obtain ⟨cause, sq, streams, control, ib, tx, sf, dl, cq, cm, rings, accesses, lk⟩ :=
      Instr.effect_frozen c fault quiet stays
    exact ⟨cause, sq, streams, control, ib, tx, sf, dl, cq, cm, rings, accesses, lk⟩

/-! ## FAULT is quiet (R189, R190) -/

/-- The entry to FAULT stops every timer and empties the list. -/
theorem Part.enterFault_faultOk (p : Part) (cause : FaultCause) : (p.enterFault cause).FaultOk := by
  intro _
  exact ⟨rfl, rfl, rfl, rfl, rfl, rfl, rfl, rfl, rfl, fun r => by
    simp [Part.enterFault, Part.landRing]⟩

/-- What a part in FAULT keeps, keeps it quiet. -/
theorem Part.Frozen.faultOk {p q : Part} (frozen : p.Frozen q) (fault : p.hi.deviceState = .fault) (quiet : p.FaultOk) :
    q.FaultOk := by
  intro _
  obtain ⟨present, transmission, lk, -⟩ := frozen.lk
  have rings (r : Fin 8) : q.landRing r = p.landRing r := by rw [Part.landRing, frozen.dl, Part.landRing]
  have same := quiet fault
  simp only [lk, frozen.sq, frozen.cq, rings]
  exact same

/-- A part comes into FAULT by the entry to it alone. -/
theorem Loud.enters_fault {p q : Part} (loud : Loud p q) (before : p.hi.deviceState ≠ .fault) : q.FaultOk := by
  cases loud with
  | signals | addresses | abandons | enables => exact fun fault => absurd fault before
  | faults => exact Part.enterFault_faultOk _ _
  | begins from' =>
    rcases Part.beginLoad_cases { p with hi := { p.hi with enable := true } } with begun | faulted
    · intro fault
      obtain ⟨state, -⟩ := HostInterface.face_iff (h := { p.hi with
        enable := true, deviceState := .loading, loadAddress := p.hi.configHi ++ p.hi.configLo
        loadAbandoned := false }) |>.1 begun
      rw [state] at fault
      cases fault
    · rw [faulted]; exact Part.enterFault_faultOk _ _
  | disables | loads | resets => exact nofun

/-- Settles O57: HI by its changes, FAULT by its entry and by the freeze. -/
theorem deviceStateKept : Obligations.DeviceStateKept := by
  intro s t device quiet stepped
  refine ⟨step_keeps (I := Part.DeviceOk) (fun move ok => ok.of_face move.face) Loud.keeps_device
    (fun p => ⟨fun _ => rfl, fun _ => rfl, nofun, nofun⟩) device stepped, ?_⟩
  rcases step_effect stepped with rfl | ⟨c, effect⟩
  · exact quiet
  · rw [effect]
    by_cases fault : s.hi.deviceState = .fault
    · exact fun stays => (Instr.effect_frozen c fault quiet stays).faultOk fault quiet stays
    · by_cases power : c = .powerOnReset
      · subst power; exact nofun
      · rcases Instr.effect_does s.toPart power with chain | ⟨m, chain, loud⟩
        · obtain ⟨state, -⟩ := HostInterface.face_iff.1 chain.face
          exact fun stays => absurd (state.symm.trans stays) fault
        · obtain ⟨state, -⟩ := HostInterface.face_iff.1 chain.face
          exact loud.enters_fault (state ▸ fault)

end Sys2Proof.Machine

/-! PROOF. The link controller: the signal reports and the link's timers, a HELLO and bad bytes that arrive, and what a
teardown does to LK (R29 to R42). -/

namespace Sys2Proof.Machine

/-- A command answers what its effect on the part is. -/
theorem exec_of_effect {c : Instr} {s : State} {q : Part} (effect : Instr.effect s.toPart c = q) :
    exec c s = s.become q := by
  rw [exec_eq_effect, effect]

/-- TEARDOWN_APPLY, with another LK in place. -/
theorem exec_teardownApply_withLink (s : State) (l : Link) : exec .teardownApply { s with lk := l } =
    s.become (Part.settle (Part.applyTeardown { s.toPart with lk := l })) := rfl

section
variable {p : Part}

/-! ## The signal (R32) -/

theorem Part.signalAcquired_of_awaitSignal (waits : p.lk.state = .awaitSignal) :
    p.signalAcquired = Part.enterHello { p with lk := { p.lk with signalPresent := true } } := by
  simp [Part.signalAcquired, waits]

theorem Part.signalAcquired_of_other (other : p.lk.state ≠ .awaitSignal) :
    p.signalAcquired = { p with lk := { p.lk with signalPresent := true } } := by
  simp [Part.signalAcquired, other]

theorem Part.signalLost_of_hello_free (hello : p.lk.state = .hello) (stays : p.lk.helloExit = none)
    (free : p.lk.transmission = none) : p.signalLost =
      Part.enterAwaitSignal { p with lk := { p.lk with signalPresent := false } } := by
  simp [Part.signalLost, hello, stays, free]

theorem Part.signalLost_of_hello_busy (hello : p.lk.state = .hello) (stays : p.lk.helloExit = none)
    (busy : p.lk.transmission ≠ none) : p.signalLost =
      { p with lk := { p.lk with
          signalPresent := false, helloTimer := .idle, helloDue := .none, helloExit := some false } } := by
  simp [Part.signalLost, hello, stays, Option.isSome_iff_ne_none.2 busy]

theorem Part.signalLost_of_up (up : p.lk.state = .up) (none' : p.lk.teardown = none) : p.signalLost =
    (Part.beginTeardown { p with lk := { p.lk with signalPresent := false } } .signalLost none).settle := by
  simp [Part.signalLost, up, none']

theorem Part.signalLost_of_other (other : (p.lk.state ≠ .hello ∧ p.lk.state ≠ .up)
    ∨ (p.lk.state = .hello ∧ p.lk.helloExit ≠ none) ∨ (p.lk.state = .up ∧ p.lk.teardown ≠ none)) :
    p.signalLost = { p with lk := { p.lk with signalPresent := false } } := by
  rcases other with ⟨notHello, notUp⟩ | ⟨hello, leaves⟩ | ⟨up, pending⟩
  · cases state : p.lk.state with
    | hello => exact absurd state notHello
    | up => exact absurd state notUp
    | offline | awaitSignal | holdoff => simp [Part.signalLost, state]
  · simp [Part.signalLost, hello, Option.isSome_iff_ne_none.2 leaves]
  · simp [Part.signalLost, up, pending]

end

/-- Settles O13: one equation per link state. -/
theorem signalAndLinkTimers : Obligations.SignalAndLinkTimers := by
  refine ⟨fun s => ⟨fun waits => ?_, fun other => ?_, fun hello stays free => ?_, fun hello stays busy => ?_,
    fun up none' => ⟨fun free => ?_, fun busy => ?_⟩, fun other => ?_⟩, fun s n => ⟨fun hello runs => ?_,
    fun holdoff runs present => ?_, fun holdoff runs lost => ?_⟩⟩
  · exact exec_of_effect (Part.signalAcquired_of_awaitSignal waits)
  · exact exec_of_effect (Part.signalAcquired_of_other other)
  · refine exec_of_effect ((Part.signalLost_of_hello_free hello stays free).trans ?_)
    simp [Part.enterAwaitSignal, stays]
  · exact exec_of_effect (Part.signalLost_of_hello_busy hello stays busy)
  · rw [exec_teardownApply_withLink]
    refine exec_of_effect ((Part.signalLost_of_up up none').trans ?_)
    rw [Part.beginTeardown_free (p := { s.toPart with lk := { s.lk with signalPresent := false } }) up none']
    rfl
  · refine exec_of_effect ((Part.signalLost_of_up up none').trans ?_)
    rw [Part.beginTeardown_busy (p := { s.toPart with lk := { s.lk with signalPresent := false } }) up none' busy]
    rfl
  · exact exec_of_effect (Part.signalLost_of_other other)
  · exact exec_of_effect (by simp [Instr.effect, Part.helloExpiry, hello, runs, Timer.isRunning])
  · exact exec_of_effect (by simp [Instr.effect, Part.holdoffExpiry, holdoff, runs, Timer.isRunning, Part.enterBySignal,
      present, Part.enterHello, nextEpoch])
  · exact exec_of_effect (by simp [Instr.effect, Part.holdoffExpiry, holdoff, runs, Timer.isRunning, Part.enterBySignal,
      lost, Part.enterAwaitSignal])

/-! ## A HELLO arrives (R30, R36, R38) -/

section
variable {p : Part} {h : HelloParcel}

theorem helloValid_of_not_inRange (outside : ¬HelloInRange h) : HelloValid h = false := by
  rw [← helloValid_iff] at outside
  exact eq_false_of_ne_true outside

theorem helloValid_of_inRange (inRange : HelloInRange h) : HelloValid h = true := (helloValid_iff h).2 inRange

theorem Part.helloArrives_of_hello (hello : p.lk.state = .hello) (stays : p.lk.helloExit = none) :
    p.helloArrives h = p.helloInHello h := by
  simp [Part.helloArrives, hello, stays]

theorem Part.helloArrives_of_up (up : p.lk.state = .up) (none' : p.lk.teardown = none) :
    p.helloArrives h = p.helloInUp h := by
  simp [Part.helloArrives, up, none']

theorem Part.helloArrives_of_other (other : (p.lk.state ≠ .hello ∧ p.lk.state ≠ .up)
    ∨ (p.lk.state = .hello ∧ p.lk.helloExit ≠ none) ∨ (p.lk.state = .up ∧ p.lk.teardown ≠ none)) :
    p.helloArrives h = p := by
  rcases other with ⟨notHello, notUp⟩ | ⟨hello, leaves⟩ | ⟨up, pending⟩
  · cases state : p.lk.state with
    | hello => exact absurd state notHello
    | up => exact absurd state notUp
    | offline | awaitSignal | holdoff => simp [Part.helloArrives, state]
  · simp [Part.helloArrives, hello, Option.isSome_iff_ne_none.2 leaves]
  · simp [Part.helloArrives, up, Option.isSome_iff_ne_none.2 pending]

theorem Part.helloInHello_of_not_inRange (outside : ¬HelloInRange h) :
    p.helloInHello h = p.linkProtocolError .helloInvalid := by
  simp [Part.helloInHello, helloValid_of_not_inRange outside]

theorem Part.helloInHello_of_inRange (inRange : HelloInRange h) :
    p.helloInHello h = if h.seen = p.lk.localEpoch then (p.recordHello h).enterUp else p.recordHello h := by
  simp only [Part.helloInHello, helloValid_of_inRange inRange, Bool.not_true, Bool.false_eq_true, if_false]
  rfl

theorem Part.helloInUp_of_not_inRange (outside : ¬HelloInRange h) :
    p.helloInUp h = p.linkProtocolError .helloInvalid := by
  simp [Part.helloInUp, helloValid_of_not_inRange outside]

theorem Part.helloInUp_of_restart (inRange : HelloInRange h) (other : h.epoch ≠ p.lk.peerEpoch) :
    p.helloInUp h = (p.beginTeardown .peerRestart (some h)).settle := by
  simp [Part.helloInUp, helloValid_of_inRange inRange, other]

/-- A HELLO of the recorded epoch: a mismatch is noted, and an answer is due unless it has seen this epoch. -/
theorem Part.helloInUp_of_same (inRange : HelloInRange h) (same : h.epoch = p.lk.peerEpoch) :
    p.helloInUp h =
      let q := if h.code ≠ p.lk.peerCode ∨ h.window ≠ p.lk.peerWindow then p.linkProtocolError .helloMismatch else p
      if h.seen = q.lk.localEpoch then q else { q with lk := { q.lk with helloDue := .answer } } := by
  simp [Part.helloInUp, helloValid_of_inRange inRange, same]

end

/-- Settles O14: one equation per link state and kind of HELLO. -/
theorem helloArrivalEffect : Obligations.HelloArrivalEffect := by
  refine ⟨fun s h hello stays => ?_, fun s h up none' => ?_, fun s h other => ?_⟩
  · have arrives := Part.helloArrives_of_hello (h := h) hello stays
    refine ⟨fun outside => ?_, fun inRange unseen => ?_, fun inRange seen => ?_⟩
    · exact exec_of_effect (arrives.trans (Part.helloInHello_of_not_inRange outside))
    · refine exec_of_effect ((arrives.trans (Part.helloInHello_of_inRange inRange)).trans ?_)
      rw [if_neg unseen]
      rfl
    · refine exec_of_effect ((arrives.trans (Part.helloInHello_of_inRange inRange)).trans ?_)
      rw [if_pos seen]
      simp [Part.enterUp, Part.recordHello, Part.beginSequencing, payloadBytes_min]
  · have arrives := Part.helloArrives_of_up (h := h) up none'
    refine ⟨fun outside => ?_, fun inRange same code window => ?_, fun inRange same differs => ?_,
      fun inRange other => ⟨fun free => ?_, fun busy => ?_⟩⟩
    · exact exec_of_effect (arrives.trans (Part.helloInUp_of_not_inRange outside))
    · refine exec_of_effect ((arrives.trans (Part.helloInUp_of_same inRange same)).trans ?_)
      simp only [code, window, ne_eq, not_true_eq_false, or_self, if_false]
      split <;> rfl
    · refine exec_of_effect ((arrives.trans (Part.helloInUp_of_same inRange same)).trans ?_)
      simp only [if_pos differs]
      rw [Part.linkProtocolError_eq]
      split <;> rfl
    · rw [exec_teardownApply_withLink]
      refine exec_of_effect ((arrives.trans (Part.helloInUp_of_restart inRange other)).trans ?_)
      rw [s.toPart.beginTeardown_free up none']
      rfl
    · refine exec_of_effect ((arrives.trans (Part.helloInUp_of_restart inRange other)).trans ?_)
      rw [s.toPart.beginTeardown_busy up none' busy]
      rfl
  · exact exec_of_effect (Part.helloArrives_of_other other)

/-! ## Bad bytes (R29, R51) -/

section
variable {p : Part}

theorem Part.payloadLimit_eq (p : Part) : p.payloadLimit = p.LongestPayload := rfl

theorem Part.missedParcel_of_pending (pending : p.sq.retryPending = true) : p.missedParcel = p := by
  simp [Part.missedParcel, pending]

theorem Part.missedParcel_of_not_pending (quiet : p.sq.retryPending = false) :
    p.missedParcel = { p with sq := { p.sq with note := .retry, retryPending := true } } := by
  simp [Part.missedParcel, quiet, Note.withRetry]

theorem Part.badArrives_of_up (up : p.lk.state = .up) (none' : p.lk.teardown = none) :
    p.badArrives = p.countBadParcel.missedParcel := by
  simp [Part.badArrives, up, none']

theorem Part.badArrives_of_hello (hello : p.lk.state = .hello) (stays : p.lk.helloExit = none) :
    p.badArrives = p.countBadParcel := by
  simp [Part.badArrives, hello, stays]

theorem Part.badArrives_of_other (other : (p.lk.state ≠ .up ∧ p.lk.state ≠ .hello)
    ∨ (p.lk.state = .up ∧ p.lk.teardown ≠ none) ∨ (p.lk.state = .hello ∧ p.lk.helloExit ≠ none)) :
    p.badArrives = p := by
  rcases other with ⟨notUp, notHello⟩ | ⟨up, pending⟩ | ⟨hello, leaves⟩
  · cases state : p.lk.state with
    | hello => exact absurd state notHello
    | up => exact absurd state notUp
    | offline | awaitSignal | holdoff => simp [Part.badArrives, state]
  · simp [Part.badArrives, up, Option.isSome_iff_ne_none.2 pending]
  · simp [Part.badArrives, hello, Option.isSome_iff_ne_none.2 leaves]

theorem Part.bytesArrive_of_none {bytes : List Byte} (bad : readParcel p.LongestPayload bytes = none) :
    p.bytesArrive bytes = p.badArrives := by
  simp [Part.bytesArrive, Part.payloadLimit_eq, bad]

theorem Part.bytesArrive_of_some {bytes : List Byte} {parcel : Parcel}
    (good : readParcel p.LongestPayload bytes = some parcel) : p.bytesArrive bytes = p.parcelArrives parcel := by
  simp [Part.bytesArrive, Part.payloadLimit_eq, good]

end

/-- Settles O15. -/
theorem badParcelEffect : Obligations.BadParcelEffect := by
  refine ⟨fun s bytes bad => ?_, fun s bytes parcel good => ?_⟩
  · have arrives := Part.bytesArrive_of_none bad
    refine ⟨fun up none' quiet => ?_, fun counted => ?_, fun other => ?_⟩
    · refine exec_of_effect ((arrives.trans (Part.badArrives_of_up up none')).trans ?_)
      exact Part.missedParcel_of_not_pending quiet
    · rcases counted with ⟨up, none', pending⟩ | ⟨hello, stays⟩
      · refine exec_of_effect ((arrives.trans (Part.badArrives_of_up up none')).trans ?_)
        exact Part.missedParcel_of_pending pending
      · exact exec_of_effect (arrives.trans (Part.badArrives_of_hello hello stays))
    · exact exec_of_effect (arrives.trans (Part.badArrives_of_other other))
  · rw [exec_of_effect (c := .badParcel bytes) (Part.bytesArrive_of_some good)]
    cases parcel <;> rfl

/-! ## A teardown, on LK (R41, R42) -/

/-- LK as a teardown clears it, before the pending record decides its next state. -/
def Link.cleared (l : Link) (t : Teardown) : Link :=
  { l with
    teardown := none, helloDue := .none, peerEpoch := 0, eventFlag := true, latestCause := t.cause
    transitions := countUp 255 l.transitions }

/-- The part as a teardown leaves it, before the pending record decides LK's next state. -/
def Part.tornDown (p : Part) (t : Teardown) : Part := { p.teardownUnits with lk := p.lk.cleared t }

section
variable {p : Part} {t : Teardown}

theorem Part.applyTeardown_pending (pending : p.lk.teardown = some t) (free : p.lk.transmission = none) :
    p.applyTeardown = (p.tornDown t).afterTeardown t := by
  unfold Part.applyTeardown
  rw [pending, free]
  simp only [Part.tornDown, Link.cleared, Part.teardownUnits_frame]

theorem Part.enterOffline_command {tag : BitVec 32} (stops : p.cm.command = some ⟨.linkStop, tag, .acting⟩) :
    p.enterOffline.cm.command = some ⟨.linkStop, tag, .offered .ok⟩ := by
  simp [Part.enterOffline, stops, Part.completeCommand]

/-- The command in progress after the units' part of a teardown. -/
theorem Part.teardownUnits_cm (p : Part) : p.teardownUnits.cm = p.teardownCommand.cm := by
  have apart (d : Delivery) (n : Nat) :
      (Part.teardownCommand { p with dl := d, choice := n }).cm = p.teardownCommand.cm := by
    unfold Part.teardownCommand
    dsimp only
    split
    · split
      · change (if (p.stream _).state = .closing || (p.stream _).state = .winding then _ else _ : Part).cm = _
        split <;> rfl
      · rfl
    · rfl
  have units : p.teardownUnits.cm = p.teardownDelivery.teardownCommand.cm := by
    simp only [Part.teardownUnits, Part.teardownSequencing_cm, Part.teardownTransmitter, Part.teardownStreams,
      Part.teardownContexts_frame]
  exact units.trans (apart _ _)

/-- A waiting LINK_STOP is not what the units' part of a teardown completes. -/
theorem Part.teardownUnits_linkStop {tag : BitVec 32} (stops : p.cm.command = some ⟨.linkStop, tag, .acting⟩) :
    p.teardownUnits.cm = p.cm := by
  rw [Part.teardownUnits_cm, Part.teardownCommand, stops]

theorem Part.teardownUnits_timers (p : Part) : p.teardownUnits.cm.timers = p.cm.timers := by
  rw [Part.teardownUnits_cm]
  unfold Part.teardownCommand
  split
  · split
    · split <;> rfl
    · rfl
  · rfl

/-! The state that the pending record decides. -/

theorem Part.afterTeardown_of_stop (stops : t.stopRequested = true) : p.afterTeardown t = p.enterOffline := by
  simp [Part.afterTeardown, stops]

theorem Part.afterTeardown_of_limit (goes : t.stopRequested = false) (limit : t.cause = .replayLimit) :
    p.afterTeardown t = p.enterHoldoff := by
  simp [Part.afterTeardown, goes, limit]

theorem Part.afterTeardown_of_lost (goes : t.stopRequested = false) (other : t.cause ≠ .replayLimit)
    (lost : p.lk.signalPresent = false) : p.afterTeardown t = p.enterAwaitSignal := by
  simp [Part.afterTeardown, goes, other, lost]

theorem Part.afterTeardown_of_present (goes : t.stopRequested = false) (other : t.cause ≠ .replayLimit)
    (present : p.lk.signalPresent = true) : p.afterTeardown t =
      match t.keptHello with
      | some h => p.enterHello.recordHello h
      | none => p.enterHello := by
  simp [Part.afterTeardown, goes, other, present] <;> rfl

end

/-- Settles O16: the state that the pending record decides. -/
theorem teardownOfTheLink : Obligations.TeardownOfTheLink := by
  intro s t pending free
  have timers : (s.tornDown t).cm.timers = s.cm.timers := s.teardownUnits_timers
  refine ⟨_, exec_of_effect (congrArg Part.settle (Part.applyTeardown_pending pending free)), fun stops => ?_,
    fun goes limit => ?_, fun goes other lost => ?_, fun goes other present fresh => ?_,
    fun goes other present h kept => ?_⟩
  · rw [Part.afterTeardown_of_stop stops]
    refine ⟨by rw [Part.enterOffline_lk]; rfl, fun tag waits => Part.enterOffline_command ?_⟩
    rw [← waits]
    exact congrArg CommandUnit.command (Part.teardownUnits_linkStop waits)
  · rw [Part.afterTeardown_of_limit goes limit, Part.enterHoldoff, timers]
    rfl
  · rw [Part.afterTeardown_of_lost (p := s.tornDown t) goes other lost]
    rfl
  · rw [Part.afterTeardown_of_present (p := s.tornDown t) goes other present, fresh]
    simp only [Part.enterHello, timers]
    rfl
  · rw [Part.afterTeardown_of_present (p := s.tornDown t) goes other present, kept]
    simp only [Part.enterHello, Part.recordHello, timers]
    rfl

end Sys2Proof.Machine

/-! PROOF. The transmitter: what goes out, in its order, and the end of a transmission (R28, R35, R52, R55, R60, R108 to
R113, R117). -/

namespace Sys2Proof.Machine

/-! ## The end of a transmission (R28, R32, R40, R41) -/

section
variable {p : Part} {parcel : Parcel}

/-- The part with the framer free. -/
def Part.framerFree (p : Part) : Part := { p with lk := { p.lk with transmission := none } }

theorem Part.transmissionEnds_quiet (busy : p.lk.transmission = some parcel) (none' : p.lk.teardown = none)
    (stays : p.lk.helloExit = none) : p.transmissionEnds = p.framerFree := by
  simp [Part.transmissionEnds, busy, none', stays, Part.framerFree]

theorem Part.transmissionEnds_pending (busy : p.lk.transmission = some parcel) (pending : p.lk.teardown ≠ none) :
    p.transmissionEnds = p.framerFree.applyTeardown := by
  simp [Part.transmissionEnds, busy, Option.isSome_iff_ne_none.2 pending, Part.framerFree]

theorem Part.transmissionEnds_stop (busy : p.lk.transmission = some parcel) (none' : p.lk.teardown = none)
    (stops : p.lk.helloExit = some true) : p.transmissionEnds = p.framerFree.enterOffline := by
  simp [Part.transmissionEnds, busy, none', stops, Part.framerFree]

theorem Part.transmissionEnds_lost (busy : p.lk.transmission = some parcel) (none' : p.lk.teardown = none)
    (lost : p.lk.helloExit = some false) : p.transmissionEnds = p.framerFree.enterBySignal := by
  simp [Part.transmissionEnds, busy, none', lost, Part.framerFree]

end

/-- Settles O28. -/
theorem transmissionEndEffect : Obligations.TransmissionEndEffect := by
  intro s parcel busy
  have ends {q : Part} (ended : s.toPart.transmissionEnds = q) : exec .transmissionEnd s = s.become q.settle :=
    exec_of_effect (congrArg Part.settle ended)
  refine ⟨fun none' stays => ?_, fun pending => ?_, fun none' stops => ⟨s.framerFree.enterOffline, ?_, ?_, ?_⟩,
    fun none' lost present => ?_, fun none' lost gone => ?_⟩
  · exact ends (Part.transmissionEnds_quiet busy none' stays)
  · exact ends (Part.transmissionEnds_pending busy pending)
  · exact ends (Part.transmissionEnds_stop busy none' stops)
  · rw [Part.enterOffline_lk]; rfl
  · exact fun tag waits => Part.enterOffline_command (p := s.framerFree) waits
  · refine ends ((Part.transmissionEnds_lost busy none' lost).trans ?_)
    simp [Part.enterBySignal, Part.framerFree, present, Part.enterHello, nextEpoch]
  · refine ends ((Part.transmissionEnds_lost busy none' lost).trans ?_)
    simp [Part.enterBySignal, Part.framerFree, gone, Part.enterAwaitSignal]

/-! ## HELLO, note and replay (R35, R52, R60, R62) -/

section
variable {p : Part}

/-- With the framer open a HELLO goes out in HELLO and UP, where one is due. -/
theorem Part.helloReady_iff (free : p.FramerOpen) : p.helloReady = true ↔
    (p.lk.state = .hello ∨ p.lk.state = .up) ∧ p.lk.helloDue ≠ .none := by
  simp [Part.helloReady, Part.mayTransmit_of_open free]

theorem Part.helloReady_of_none (none' : p.lk.helloDue = .none) : p.helloReady = false := by
  simp [Part.helloReady, none']

/-- With the framer open a note goes out in UP. -/
theorem Part.noteReady_of_up (free : p.FramerOpen) (up : p.lk.state = .up) (noted : p.sq.note ≠ .none) :
    p.noteReady = true := by
  simp [Part.noteReady, Part.mayTransmit_of_open free, up, noted]

theorem Part.noteReady_of_none (none' : p.sq.note = .none) : p.noteReady = false := by
  simp [Part.noteReady, none']

theorem Part.sendHello_of_ready (ready : p.helloReady = true) : p.sendHello =
    Part.transmit { p with lk := { p.lk with helloDue := .none } } (.hello
      { epoch := p.lk.localEpoch, seen := if p.lk.helloDue = .answer then p.lk.peerEpoch else 0
        code := p.lk.offeredCode, window := p.lk.offeredWindow, label := p.hi.config.nodeLabel }) := by
  simp [Part.sendHello, ready]

theorem Part.sendNote_of_ready (first : p.helloReady = false) (ready : p.noteReady = true) : p.sendNote =
    (let q := { p with sq := { p.sq with note := .none, unacknowledged := 0, ackTimer := .idle } }
    match p.sq.note with
    | .retry => q.countRetrySent.transmit (.retry q.sq.expected)
    | _ => q.transmit (.ack q.sq.expected)) := by
  simp only [Part.sendNote, first, ready, Bool.not_true, Bool.or_self, Bool.false_eq_true, if_false] <;> rfl

/-- The entry at the rewind position goes out again (R60). -/
theorem Part.sendReplay_of_ready {e : ReplayEntry} (first : p.helloReady = false) (second : p.noteReady = false)
    (ready : p.replayReady = true) (entry : p.rewindEntry = some e) : p.sendReplay =
      Part.transmit
        (Part.countReplayed { p with sq := { p.sq with
          rewind := p.sq.rewindAfter e.seq
          slot := if (p.sq.slot.readyFor e.seq).isSome then .empty else p.sq.slot } })
        (replayParcel e ((p.sq.slot.readyFor e.seq).getD [])) := by
  simp [Part.sendReplay, first, second, ready, entry]

theorem ReplaySlot.readyFor_none {slot : ReplaySlot} {n : Seq} (other : ∀ payload, slot ≠ .ready n payload) :
    slot.readyFor n = none := by
  cases ready : slot.readyFor n with
  | none => rfl
  | some payload => exact absurd ((ReplaySlot.readyFor_iff ..).1 ready) (other payload)

/-- A replay is ready where LIVE DATA has its payload; every other content is ready at once (R60, R62). -/
theorem Part.replayReady_iff {e : ReplayEntry} (free : p.FramerOpen) (up : p.lk.state = .up)
    (entry : p.rewindEntry = some e) : p.replayReady = true ↔
      (∀ c i x o l f g m, e.content = .data c i x o l f g m → (p.sq.slot.readyFor e.seq).isSome) := by
  obtain ⟨seq, content⟩ := e
  simp only [Part.replayReady, Part.mayTransmit_of_open free, up, entry, decide_true, Bool.true_and]
  cases content with
  | data => exact ⟨fun held _ _ _ _ _ _ _ _ _ => held, fun all => all _ _ _ _ _ _ _ _ rfl⟩
  | grant | withdraw | cut | void => simp

end

/-- The entry that a replay sends, where the list has one at the rewind position. -/
theorem Part.rewindEntry_of_find {p : Part} {n : Seq} {e : ReplayEntry} (rewound : p.sq.rewind = some n)
    (found : p.sq.replay.find? (fun x => decide (x.seq = n)) = some e) : p.rewindEntry = some e ∧ e.seq = n := by
  refine ⟨by rw [Part.rewindEntry, rewound]; exact found, ?_⟩
  simpa using List.find?_some found

/-- Settles O25. -/
theorem unnumberedSends : Obligations.UnnumberedSends := by
  refine ⟨fun s free => ⟨fun state due => ?_, fun other => ?_⟩, fun s free up quiet => ?_, ?_⟩
  · exact exec_of_effect (Part.sendHello_of_ready ((Part.helloReady_iff free).2 ⟨state, due⟩))
  · refine exec_of_effect ?_
    have notReady : s.helloReady = false := by
      rw [← Bool.not_eq_true, Part.helloReady_iff free]
      rintro ⟨state, due⟩
      rcases other with ⟨notHello, notUp⟩ | none'
      · exact state.elim notHello notUp
      · exact due none'
    simp [Instr.effect, Part.sendHello, notReady]
  · have first := Part.helloReady_of_none (p := s.toPart) quiet
    refine ⟨fun ack => ?_, fun retry => ?_, fun none' => ?_⟩
    · have ready := Part.noteReady_of_up free up (by rw [ack]; exact nofun)
      refine exec_of_effect ((Part.sendNote_of_ready first ready).trans ?_)
      rw [ack]
      rfl
    · have ready := Part.noteReady_of_up free up (by rw [retry]; exact nofun)
      refine exec_of_effect ((Part.sendNote_of_ready first ready).trans ?_)
      rw [retry]
      rfl
    · exact exec_of_effect (by simp [Instr.effect, Part.sendNote, Part.noteReady_of_none none'])
  · intro s n e free up quiet none' rewound found
    obtain ⟨entry, rfl⟩ := Part.rewindEntry_of_find rewound found
    have first := Part.helloReady_of_none (p := s.toPart) quiet
    have second := Part.noteReady_of_none (p := s.toPart) none'
    have goes := Part.sendReplay_of_ready (p := s.toPart) (e := e) first second
    have ready := Part.replayReady_iff free up entry
    intro moved out
    have sent {slot : ReplaySlot} {parcel : Parcel} (isReady : s.replayReady = true)
        (slotIs : (if (s.sq.slot.readyFor e.seq).isSome then .empty else s.sq.slot) = slot)
        (parcelIs : replayParcel e ((s.sq.slot.readyFor e.seq).getD []) = parcel) :
        exec .sendReplay s = s.become (out slot parcel) := by
      subst slotIs parcelIs
      exact exec_of_effect (goes isReady entry)
    refine ⟨fun c i index offset length first last mark live => ⟨fun payload held => ?_, fun empty => ?_⟩,
      fun empty => ?_, fun payload held void => ?_⟩
    · have holds := (ReplaySlot.readyFor_iff ..).2 held
      refine sent (ready.2 fun _ _ _ _ _ _ _ _ _ => by rw [holds]; rfl) ?_ ?_
      · rw [holds]; rfl
      · rw [holds, replayParcel, live]; rfl
    · have waits : s.replayReady = false := by
        rw [← Bool.not_eq_true, ready]
        intro held
        have some' := held _ _ _ _ _ _ _ _ live
        rw [ReplaySlot.readyFor_none empty] at some'
        cases some'
      exact exec_of_effect (by simp [Instr.effect, Part.sendReplay, waits])
    · have none'' := ReplaySlot.readyFor_none empty
      have slotIs : (if (s.sq.slot.readyFor e.seq).isSome then .empty else s.sq.slot) = s.sq.slot := by rw [none'']; rfl
      have isReady {content : Content} (content' : e.content = content)
          (other : ∀ c i x o l f g m, content ≠ .data c i x o l f g m) : s.replayReady = true :=
        ready.2 fun c i x o l f g m live => absurd (content'.symm.trans live) (other c i x o l f g m)
      refine ⟨fun i a c m grant => ?_, fun i withdraw => ?_, fun i cut => ?_, fun void => ?_⟩
      · exact sent (isReady grant nofun) slotIs (by rw [replayParcel, grant])
      · exact sent (isReady withdraw nofun) slotIs (by rw [replayParcel, withdraw])
      · exact sent (isReady cut nofun) slotIs (by rw [replayParcel, cut])
      · exact sent (isReady void nofun) slotIs (by rw [replayParcel, void])
    · have holds := (ReplaySlot.readyFor_iff ..).2 held
      refine sent (ready.2 fun _ _ _ _ _ _ _ _ _ => by rw [holds]; rfl) ?_ ?_
      · rw [holds]; rfl
      · rw [replayParcel, void]

/-! ## The head of the control queue (R110) -/

section
variable {p : Part}

theorem Part.controlReady_of_cons (may : p.MaySequence) {head : ControlEntry} {rest : List ControlEntry}
    (queue : p.control = head :: rest) : p.controlReady = true := by
  obtain ⟨-, -, -, transmit, up, room⟩ := may.tests
  simp [Part.controlReady, transmit, up, room, queue]

theorem Part.sendControl_of_cons (may : p.MaySequence) {head : ControlEntry} {rest : List ControlEntry}
    (queue : p.control = head :: rest) : p.sendControl =
      (let q := { p with control := rest }
      match head with
      | .grant i a c m => ((q.number (.grant i a c m)).countParcelSent).transmit (.grant p.sq.next ⟨i.val, a, c, m⟩)
      | .cut i => ((q.number (.cut i)).countParcelSent).transmit (.cut p.sq.next i.val)
      | .withdraw i =>
        (((q.number (.withdraw i)).countParcelSent).transmit (.withdraw p.sq.next i.val)).withdrawSequenced i) := by
  obtain ⟨hello, note, replay, -⟩ := may.tests
  simp only [Part.sendControl, hello, note, replay, Part.controlReady_of_cons may queue, queue, Bool.not_true,
    Bool.or_self, Bool.false_eq_true, if_false]
  cases head <;> rfl

end

/-- Settles O26. -/
theorem sendControlEffect : Obligations.SendControlEffect := by
  intro s rest may sent
  have goes {head : ControlEntry} (queue : s.control = head :: rest) := Part.sendControl_of_cons may queue
  have numbered (content : Content) (parcel : Parcel) :
      ((Part.number { s.toPart with control := rest } content).countParcelSent).transmit parcel = sent content parcel := by
    rw [Part.number_eq]
    rfl
  refine ⟨fun i a c m queue => ?_, fun i queue => ?_, fun i queue => ?_⟩
  · exact exec_of_effect (congrArg Part.settle ((goes queue).trans (numbered _ _)))
  · exact exec_of_effect (congrArg Part.settle ((goes queue).trans (numbered _ _)))
  · refine exec_of_effect (congrArg Part.settle ((goes queue).trans ?_))
    exact congrArg (fun q : Part => q.withdrawSequenced i) (numbered _ _)

/-! ## A staged parcel (R117) -/

section
variable {p : Part} {d : Described} {payload : List Byte}

theorem Part.controlReady_of_nil (empty : p.control = []) : p.controlReady = false := by
  simp [Part.controlReady, empty]

theorem Part.stagedReady_of_may (may : p.MaySequence) : p.stagedReady = true := by
  obtain ⟨-, -, -, transmit, up, room⟩ := may.tests
  simp [Part.stagedReady, transmit, up, room]

/-- With nothing higher in the order ready, the staged parcel is rechecked, and goes or is dropped. -/
theorem Part.sendData_of_ready (may : p.MaySequence) (empty : p.control = [])
    (staged : p.tx.staging = .ready d payload) : p.sendData =
      if p.recheck d then p.sendStaged d payload else { p with tx := { p.tx with staging := .empty } } := by
  obtain ⟨hello, note, replay, -⟩ := may.tests
  simp [Part.sendData, hello, note, replay, Part.controlReady_of_nil empty, Part.stagedReady_of_may may, staged]

theorem Part.recheck_iff : p.recheck d = true ↔ (p.stream d.stream).state = .opened
    ∧ 1 ≤ (p.stream d.stream).credits ∧ (p.context d.context).undecided = true := by
  simp [Part.recheck, and_assoc]

/-- What a mark that is set once does to the contexts. -/
theorem Part.context_markAll (l : List (Fin 32)) (f : Context → Context) (once : ∀ x, f (f x) = f x) (c : Fin 32)
    (p : Part) : (l.foldl (fun p x => p.modContext x f) p).context c = if c ∈ l then f (p.context c) else p.context c := by
  induction l generalizing p with
  | nil => rfl
  | cons x l ih =>
    rw [List.foldl_cons, ih]
    by_cases here : c = x
    · subst here
      rw [Part.context_modContext_self]
      simp [once]
    · rw [Part.context_modContext_of_ne _ _ here]
      simp [here]

theorem Part.context_markEarlier (p : Part) (i : Fin 64) (c x : Fin 32) : (p.markEarlier i c).context x =
    if x ∈ ahead (p.stream i).sendLine c then { p.context x with laterSequenced := true } else p.context x :=
  Part.context_markAll _ (fun y => { y with laterSequenced := true }) (fun _ => rfl) x p

/-- A context does not stand ahead of itself. -/
theorem ahead_not_self (line : List (Fin 32)) (c : Fin 32) : ¬c ∈ ahead line c := by
  unfold ahead
  induction line with
  | nil => exact List.not_mem_nil
  | cons x line ih =>
    rw [List.takeWhile_cons]
    split
    · next other =>
      rw [List.mem_cons, not_or]
      exact ⟨fun same => of_decide_eq_true other same.symm, ih⟩
    · exact List.not_mem_nil

theorem contextRing_eq_zero (c : Fin 32) : contextRing c = 0 ↔ c.val < 8 := by
  rw [contextRing, Fin.ext_iff]
  show c.val / 8 = 0 ↔ _
  omega

/-- The contexts after a first transmission. -/
theorem Part.sendStaged_context (x : Fin 32) : (p.sendStaged d payload).context x =
    if x = d.context then (p.context d.context).advance d.length
    else if x ∈ ahead (p.stream d.stream).sendLine d.context then { p.context x with laterSequenced := true }
    else p.context x := by
  let q := (p.countTurn (contextRing d.context)).number
    (.data d.context d.stream d.index d.offset d.length d.first d.last d.mark)
  let spent := (q.modStream d.stream fun e => { e with credits := e.credits - 1 }).modContext d.context
    fun x => x.advance d.length
  have line : (spent.stream d.stream).sendLine = (p.stream d.stream).sendLine := by
    show ((q.modStream d.stream _).stream d.stream).sendLine = _
    rw [Part.stream_modStream_self]
    rfl
  have same (y : Fin 32) (other : y ≠ d.context) : spent.context y = p.context y :=
    (Part.context_modContext_of_ne _ _ other).trans rfl
  have here : spent.context d.context = (p.context d.context).advance d.length :=
    (Part.context_modContext_self ..).trans rfl
  have marked : (p.sendStaged d payload).context x = (spent.markEarlier d.stream d.context).context x := rfl
  rw [marked, Part.context_markEarlier, line]
  by_cases self : x = d.context
  · subst self
    rw [if_neg (ahead_not_self _ _), if_pos rfl, here]
  · rw [if_neg self, same x self]

/-- A first transmission changes the contexts of SF alone, beside the units that count it. -/
theorem Part.markEarlier_eq (p : Part) (i : Fin 64) (c : Fin 32) :
    ∃ contexts, p.markEarlier i c = { p with sf := { p.sf with contexts := contexts } } := by
  unfold Part.markEarlier
  generalize ahead (p.stream i).sendLine c = l
  induction l generalizing p with
  | nil => exact ⟨p.sf.contexts, rfl⟩
  | cons x l ih =>
    obtain ⟨contexts, marked⟩ := ih (p.modContext x fun y => { y with laterSequenced := true })
    exact ⟨contexts, marked.trans rfl⟩

theorem Part.sendStaged_eq (p : Part) (d : Described) (payload : List Byte) :
    ∃ contexts, p.sendStaged d payload =
      { p with
        sq := p.numbered (.data d.context d.stream d.index d.offset d.length d.first d.last d.mark)
        lk := p.lk.sending (.data p.sq.next ⟨d.stream.val, d.index, d.first, d.last, d.mark, payload⟩)
        streams := p.streams.set d.stream { p.stream d.stream with credits := (p.stream d.stream).credits - 1 }
        sf := { p.sf with contexts := contexts }
        tx := { (p.countTurn (contextRing d.context)).tx with staging := .empty } } := by
  obtain ⟨contexts, marked⟩ := Part.markEarlier_eq
    ((((p.countTurn (contextRing d.context)).number
      (.data d.context d.stream d.index d.offset d.length d.first d.last d.mark)).modStream d.stream fun e =>
        { e with credits := e.credits - 1 }).modContext d.context fun x => x.advance d.length) d.stream d.context
  refine ⟨contexts, ?_⟩
  unfold Part.sendStaged
  dsimp only
  rw [marked, Part.number_eq]
  rfl

end

/-- Settles O27. -/
theorem sendDataEffect : Obligations.SendDataEffect := by
  refine ⟨fun s d payload may empty staged opened credit undecided => ?_, fun s d payload staged =>
    ⟨fun may empty fails => ?_, fun may waits => ?_, fun blocked => ?_⟩⟩
  · intro x ahead'
    have passes : s.recheck d = true := Part.recheck_iff.2 ⟨opened, credit, undecided⟩
    obtain ⟨contexts, sent⟩ := s.sendStaged_eq d payload
    have after := Part.sendStaged_context (p := s.toPart) (d := d) (payload := payload)
    rw [sent] at after
    refine ⟨_, exec_of_effect (((Part.sendData_of_ready may empty staged).trans (if_pos passes)).trans sent), rfl, rfl,
      rfl, ?_, fun c other => ?_, rfl, rfl, rfl, rfl, fun express => ?_, fun weighted => ?_, rfl, rfl, rfl, rfl, rfl, rfl,
      rfl, rfl⟩
    · rw [after, if_pos rfl]; rfl
    · rw [after, if_neg other]; rfl
    · have ring := (contextRing_eq_zero d.context).2 express
      simp only [Part.countTurn, ring, if_true]
      refine ⟨trivial, fun busy => ?_, fun idle => ?_⟩
      · rw [if_pos ((Part.weightedBusy_iff _).2 busy)]
      · rw [if_neg (mt (Part.weightedBusy_iff _).1 idle)]
    · have ring : contextRing d.context ≠ 0 := fun zero => by
        have below := (contextRing_eq_zero d.context).1 zero
        omega
      simp only [Part.countTurn, if_neg ring, and_self]
  · have stays : ¬s.recheck d = true := fun passes => by
      obtain ⟨opened, credit, undecided⟩ := Part.recheck_iff.1 passes
      rcases fails with notOpen | spent | decided
      · exact notOpen opened
      · omega
      · rw [decided] at undecided; cases undecided
    exact exec_of_effect ((Part.sendData_of_ready may empty staged).trans (if_neg stays))
  · obtain ⟨head, rest, queue⟩ := List.exists_cons_of_ne_nil waits
    refine exec_of_effect ?_
    simp [Instr.effect, Part.sendData, Part.controlReady_of_cons may queue]
  · refine exec_of_effect ?_
    have shut : s.stagedReady = false := by
      rw [← Bool.not_eq_true]
      intro ready
      simp only [Part.stagedReady, Part.mayTransmit, Part.running, Part.roomForNew, Bool.and_eq_true, decide_eq_true_eq,
        Option.isNone_iff_eq_none] at ready
      obtain ⟨⟨⟨⟨running, free⟩, none'⟩, up⟩, room, still⟩ := ready
      rcases blocked with notFree | notUp | full | rewound
      · exact notFree ⟨running, free, none'⟩
      · exact notUp up
      · omega
      · exact rewound still
    simp [Instr.effect, Part.sendData, shut]

end Sys2Proof.Machine

/-! PROOF. The transmitter's pick, and the payloads that it and the replay read from host memory (R61 to R67, R111 to R116,
R119, R120). -/

namespace Sys2Proof.Machine

/-! ## The pick (R111 to R114) -/

section
variable {p : Part}

theorem Part.weight_eq (p : Part) (r : Fin 4) : p.weight r =
    if r = 1 then p.hi.config.weight1 else if r = 2 then p.hi.config.weight2 else p.hi.config.weight3 := by
  unfold Part.weight
  split
  · rfl
  · rfl
  · rw [if_neg ‹_›, if_neg ‹_›]

theorem nextWeighted_eq (r : Fin 4) : nextWeighted r = if r = 1 then 2 else if r = 2 then 3 else 1 := by
  revert r; decide

/-- The cycle of the weighted rings. -/
theorem nextWeighted_cycle {r : Fin 4} (weighted : r ∈ [1, 2, 3]) :
    nextWeighted (nextWeighted (nextWeighted r)) = r := by
  revert r; decide

theorem Part.weightedBusy_of_pick {r : Fin 4} {c : Fin 32} (weighted : r ∈ [1, 2, 3]) (picked : p.ringPick r = some c) :
    p.weightedBusy = true := List.any_eq_true.2 ⟨r, weighted, by rw [picked]; rfl⟩

theorem Part.weightedBusy_false : p.weightedBusy = false ↔
    p.ringPick 1 = none ∧ p.ringPick 2 = none ∧ p.ringPick 3 = none := by
  simp [Part.weightedBusy]

/-- TX may pick: RUNNING, UP, no teardown pending and the slot EMPTY. -/
theorem Part.mayPick_of (running : p.hi.deviceState = .running) (up : p.lk.state = .up) (none' : p.lk.teardown = none)
    (empty : p.tx.staging = .empty) : p.mayPick = true := by
  simp [Part.mayPick, Part.running, running, up, none', empty]

theorem Part.pick_express {c : Fin 32} (may : p.mayPick = true) (chosen : p.expressChosen = true)
    (picked : p.ringPick 0 = some c) : p.pick = p.gather c := by
  simp [Part.pick, may, chosen, picked]

theorem Part.pick_weighted {c : Fin 32} {r : Fin 4} {n : Nat} (may : p.mayPick = true)
    (chosen : p.expressChosen = false) (turn : p.weightedPick = some (r, n)) (picked : p.ringPick r = some c) :
    p.pick = Part.gather { p with tx := { p.tx with turnRing := r, turnCount := n } } c := by
  simp [Part.pick, may, chosen, turn, picked]

/-- The turn ring keeps its turn below its weight. -/
theorem Part.weightedPick_stays {c : Fin 32} (picked : p.ringPick p.tx.turnRing = some c)
    (below : p.tx.turnCount < p.weight p.tx.turnRing) : p.weightedPick = some (p.tx.turnRing, p.tx.turnCount) := by
  simp [Part.weightedPick, picked, below]

/-- Otherwise the turn goes to the first ring of the cycle that has an eligible context. -/
theorem Part.weightedPick_moves (weighted : p.tx.turnRing ∈ [1, 2, 3])
    (ended : p.ringPick p.tx.turnRing = none ∨ p.weight p.tx.turnRing ≤ p.tx.turnCount) : p.weightedPick =
      ([nextWeighted p.tx.turnRing, nextWeighted (nextWeighted p.tx.turnRing), p.tx.turnRing].find?
        fun r => (p.ringPick r).isSome).map fun r => (r, 0) := by
  have ends : ((p.ringPick p.tx.turnRing).isSome && decide (p.tx.turnCount < p.weight p.tx.turnRing)) = false := by
    rcases ended with none' | spent
    · rw [none']; rfl
    · rw [decide_eq_false (by omega), Bool.and_false]
  rw [Part.weightedPick, ends]
  simp only [Bool.false_eq_true, if_false, nextWeighted_cycle weighted]

end

/-- Settles O29. -/
theorem dataPickOrder : Obligations.DataPickOrder := by
  intro s running up none' empty picks idle turned weight next held t
  have may := Part.mayPick_of running up none' empty
  have picked {r : Fin 4} {c : Fin 32} : picks r c → s.ringPick r = some c := (Part.ringPick_iff ..).2
  have isIdle {r : Fin 4} : idle r → s.ringPick r = none := (Part.ringPick_none ..).2
  have runs {q : Part} (effect : s.pick = q) : exec .dataPick s = s.become q := exec_of_effect effect
  refine ⟨fun c express first => ?_, fun weighted waits => ?_, fun idle0 idle1 idle2 idle3 weighted => ?_⟩
  · refine runs (Part.pick_express may ?_ (picked express))
    have open' : s.tx.burst < s.hi.config.burstLimit ∨ s.weightedBusy = false :=
      first.imp id fun ⟨one, two, three⟩ => Part.weightedBusy_false.2 ⟨isIdle one, isIdle two, isIdle three⟩
    rcases open' with below | quiet
    · simp [Part.expressChosen, picked express, below]
    · simp [Part.expressChosen, picked express, quiet]
  · have shut : s.expressChosen = false := by
      cases express : s.ringPick 0 with
      | none => simp [Part.expressChosen, express]
      | some c =>
        obtain ⟨limit, busy⟩ := waits c ((Part.ringPick_iff ..).1 express)
        have isBusy : s.weightedBusy = true := by
          rw [← Bool.not_eq_false, Part.weightedBusy_false]
          rintro ⟨one, two, three⟩
          exact busy ⟨(Part.ringPick_none ..).1 one, (Part.ringPick_none ..).1 two, (Part.ringPick_none ..).1 three⟩
        simp [Part.expressChosen, isBusy, limit]
    have weightIs : s.weight t = weight t := s.weight_eq t
    refine ⟨fun c turn below => ?_, fun ended => ?_⟩
    · exact runs (Part.pick_weighted may shut (Part.weightedPick_stays (picked turn) (weightIs ▸ below)) (picked turn))
    · have moves := Part.weightedPick_moves weighted (ended.imp isIdle (weightIs ▸ ·))
      have nextIs (r : Fin 4) : nextWeighted r = next r := nextWeighted_eq r
      rw [nextIs, nextIs] at moves
      change s.weightedPick = ([next t, next (next t), t].find? fun r => (s.ringPick r).isSome).map fun r => (r, 0) at moves
      refine ⟨fun c first => ?_, fun idle1 c second => ?_, fun idle1 idle2 c last => ?_⟩
      · refine runs (Part.pick_weighted may shut ?_ (picked first))
        rw [moves]
        simp [picked first]
      · refine runs (Part.pick_weighted may shut ?_ (picked second))
        rw [moves]
        simp [isIdle idle1, picked second]
      · refine runs (Part.pick_weighted may shut ?_ (picked last))
        rw [moves]
        simp [isIdle idle1, isIdle idle2, picked last]
  · have none'' : ∀ r ∈ [1, 2, 3], s.ringPick r = none := by
      simpa using ⟨isIdle idle1, isIdle idle2, isIdle idle3⟩
    have cycle (r : Fin 4) : nextWeighted r ∈ [1, 2, 3] := by revert r; decide
    have turn := Part.weightedPick_moves weighted (.inl (none'' _ weighted))
    refine runs ?_
    simp only [List.find?, none'' _ (cycle _), show s.ringPick s.tx.turnRing = none from none'' _ weighted,
      Option.isSome_none, Option.map_none] at turn
    simp [Part.pick, may, Part.expressChosen, isIdle idle0, turn]

/-! ## The bytes that host reads bring (R61, R115) -/

theorem hostBytes_length (m : Addr → Byte) (a : Addr) (n : Nat) : (hostBytes m a n).length = n := by
  simp [hostBytes]

/-- A part of a fragment's bytes. -/
theorem hostBytes_take_drop (m : Addr → Byte) (a : Addr) (n offset length : Nat) :
    ((hostBytes m a n).drop offset).take length = hostBytes m (a + BitVec.ofNat 64 offset) (min length (n - offset)) := by
  apply List.ext_getElem
  · simp [hostBytes_length]
  · intro k _ _
    simp [hostBytes, BitVec.ofNat_add, BitVec.add_assoc]

/-- The reads of a payload bring the message's bytes from the offset on. -/
theorem payloadReads_bytes (m : Addr → Byte) (fragments : List Fragment) (offset length : Nat) :
    ((payloadReads fragments offset length).flatMap fun r => hostBytes m r.address r.length)
      = ((fragments.flatMap fun f => hostBytes m f.address f.length).drop offset).take length := by
  induction fragments generalizing offset length with
  | nil => simp [payloadReads]
  | cons f rest ih =>
    rw [List.flatMap_cons, List.drop_append, hostBytes_length, List.take_append, hostBytes_take_drop]
    simp only [List.length_drop, hostBytes_length]
    unfold payloadReads
    split
    · rename_i none'
      simp [none', hostBytes]
    · split
      · rename_i past
        have none' : f.length - offset = 0 := by omega
        rw [ih, none', Nat.min_zero, Nat.sub_zero]
        rfl
      · rename_i within
        have rest' : offset - f.length = 0 := by omega
        have left : length - min length (f.length - offset) = length - (f.length - offset) := by omega
        rw [List.flatMap_cons, ih, rest', left]

/-! ## The CUT that is asked for (R25) -/

theorem Part.withdrawWaits_iff (p : Part) (i : Fin 64) : p.withdrawWaits i = true ↔ .withdraw i ∈ p.control := by
  rw [Part.withdrawWaits, List.any_eq_true]
  constructor
  · rintro ⟨e, member, isHere⟩
    cases e with
    | withdraw j => obtain rfl : j = i := of_decide_eq_true isHere; exact member
    | grant | cut => cases isHere
  · exact fun member => ⟨_, member, decide_eq_true rfl⟩

theorem Part.cutWaits_iff (p : Part) (i : Fin 64) : p.cutWaits i = true ↔ .cut i ∈ p.control := by
  rw [Part.cutWaits, List.any_eq_true]
  constructor
  · rintro ⟨e, member, isHere⟩
    cases e with
    | cut j => obtain rfl : j = i := of_decide_eq_true isHere; exact member
    | grant | withdraw => cases isHere
  · exact fun member => ⟨_, member, decide_eq_true rfl⟩

theorem Part.queueCut_eq (p : Part) (i : Fin 64) : p.queueCut i =
    if (p.stream i).state = .opened ∧ .withdraw i ∉ p.control ∧ .cut i ∉ p.control then
      { p with control := p.control ++ [.cut i] }
    else p := by
  simp only [Part.queueCut, ← Part.withdrawWaits_iff, ← Part.cutWaits_iff, Bool.and_eq_true, decide_eq_true_eq,
    Bool.not_eq_true', Bool.not_eq_true, and_assoc]

/-! ## The reads of a gathering and of a refetch -/

theorem readsEnded_false {reads : List HostRead} (waits : ∃ r ∈ reads, r.result = none) : readsEnded reads = false := by
  rw [← Bool.not_eq_true, readsEnded_iff]
  obtain ⟨r, member, none'⟩ := waits
  exact fun all => all r member none'

section
variable {p : Part} {k : Nat} {result : ReadEnd} {d : Described} {wanted : Bool} {reads : List HostRead}

theorem Part.gather_eq {c : Fin 32} {i : Fin 64} (stream : (p.context c).stream = i.val) : p.gather c =
    (let d := p.describe c i
    let reads := payloadReads (p.context c).fragments d.offset d.length
    { p with
      tx := { p.tx with staging := .reading d true reads }
      hi := { p.hi with
        accesses := p.hi.accesses ++ reads.mapIdx fun j r => ⟨.gatherRead j, r.address, r.length, []⟩ } }) := by
  have here : index? 64 (p.context c).stream = some i := by simp [stream, index?]
  simp only [Part.gather, here, readAccesses_eq, Nat.zero_add, Part.issueAll]

theorem Part.gatherEnd_of_waits (reading : p.tx.staging = .reading d wanted reads)
    (waits : ∃ r ∈ endRead reads k result, r.result = none) :
    p.gatherEnd k result = { p with tx := { p.tx with staging := .reading d wanted (endRead reads k result) } } := by
  simp [Part.gatherEnd, reading, readsEnded_false waits]

theorem Part.gatherEnd_of_dropped (reading : p.tx.staging = .reading d false reads)
    (ended : ∀ r ∈ endRead reads k result, r.result ≠ none) :
    p.gatherEnd k result = { p with tx := { p.tx with staging := .empty } } := by
  simp [Part.gatherEnd, reading, (readsEnded_iff _).2 ended]

theorem Part.gatherEnd_of_data {parts : List (List Byte)} (reading : p.tx.staging = .reading d true reads)
    (data : (endRead reads k result).map HostRead.result = parts.map fun b => some (.data b)) :
    p.gatherEnd k result = { p with tx := { p.tx with staging := .ready d parts.flatten } } := by
  obtain ⟨payload, ended⟩ := readsPayload_of_data _ _ data
  simp [Part.gatherEnd, reading, payload, ended]

theorem Part.gatherEnd_of_failed (reading : p.tx.staging = .reading d true reads)
    (ended : ∀ r ∈ endRead reads k result, r.result ≠ none)
    (failed : ∃ r ∈ endRead reads k result, r.result = some .failed) :
    p.gatherEnd k result = p.payloadReadFault d := by
  simp [Part.gatherEnd, reading, (readsEnded_iff _).2 ended, readsPayload_of_failed _ failed]

end

theorem exec_gatherReadEnd {s : State} {k : Nat} {result : ReadEnd} {a : Access} (running : s.hi.deviceState = .running)
    (inFlight : s.access? (.gatherRead k) = some a) (length : result.hasLength a.length = true) :
    exec (.gatherReadEnd k result) s = s.become ((s.endAccess (.gatherRead k)).gatherEnd k result).settle :=
  exec_of_effect (Part.onReadEnd_delivered inFlight (readAnswers_of_hasLength length) running)

/-- Settles O30. -/
theorem payloadGathering : Obligations.PayloadGathering := by
  refine ⟨fun p c i stream => Part.gather_eq stream,
    fun m fragments offset length => ⟨payloadReads_bytes .., payloadReads_within _ _ _⟩,
    fun s k result a d wanted reads running inFlight length reading => ?_, fun p i => ⟨?_, fun other => ?_⟩⟩
  · have reading' : (s.endAccess (.gatherRead k)).tx.staging = .reading d wanted reads := reading
    rw [exec_gatherReadEnd running inFlight length]
    refine ⟨fun waits => ?_, fun ended dropped => ?_, fun parts data kept => ?_, fun ended failed kept => ?_⟩
    · rw [Part.gatherEnd_of_waits reading' waits]; rfl
    · subst dropped; rw [Part.gatherEnd_of_dropped reading' ended]; rfl
    · subst kept; rw [Part.gatherEnd_of_data reading' data]; rfl
    · subst kept
      rw [Part.gatherEnd_of_failed reading' ended failed]
      simp only [Part.payloadReadFault, Part.hostReadFault, decide_eq_true_eq]
      rfl
  · intro opened noWithdraw noCut
    rw [Part.queueCut_eq, if_pos ⟨opened, noWithdraw, noCut⟩]
  · rw [Part.queueCut_eq, if_neg]
    rintro ⟨opened, noWithdraw, noCut⟩
    rcases other with shut | withdraw | cut
    · exact shut opened
    · exact noWithdraw withdraw
    · exact noCut cut

/-! ## Refetches (R61 to R67) -/

/-- The entry is a LIVE DATA entry of the context. -/
def ReplayEntry.isDataOf (c : Fin 32) (e : ReplayEntry) : Bool :=
  match e.content with
  | .data c' _ _ _ _ _ _ _ => decide (c' = c)
  | _ => false

theorem ReplayEntry.isDataOf_iff (c : Fin 32) (e : ReplayEntry) : e.isDataOf c = true ↔
    ∃ j k o n f l m, e.content = .data c j k o n f l m := by
  obtain ⟨seq, content⟩ := e
  cases content <;> simp [ReplayEntry.isDataOf]

/-- The refetch slot once the entries of a context have turned VOID. -/
def Part.voidedSlot (p : Part) (c : Fin 32) : ReplaySlot :=
  p.sq.slot.dropIf fun n => p.sq.replay.any fun e => e.isDataOf c && decide (e.seq = n)

/-- A context's entries turn VOID in place, and a refetch of one of them is dropped (R64, R66). -/
theorem Part.voidEntries_eq (p : Part) (c : Fin 32) : p.voidEntries c =
    { p with sq := { p.sq with
        replay := p.sq.replay.map fun x =>
          match x.content with
          | .data c' _ _ _ _ _ _ _ => if c' = c then { x with content := .void } else x
          | _ => x
        slot := p.voidedSlot c } } := by
  have void (x : ReplayEntry) : (if x.isDataOf c then { x with content := .void } else x) =
      match x.content with
      | .data c' _ _ _ _ _ _ _ => if c' = c then { x with content := .void } else x
      | _ => x := by
    obtain ⟨seq, content⟩ := x
    cases content <;> simp [ReplayEntry.isDataOf]
  simp only [← void]
  rfl

/-- What a dropped refetch leaves in the slot: a read that is no longer wanted, or nothing. -/
theorem Part.voidedSlot_spec (p : Part) (c : Fin 32) :
    let mine (x : ReplayEntry) : Prop := ∃ j k o n f l m, x.content = .data c j k o n f l m
    (∀ n w reads, p.sq.slot = .reading n w reads → (∃ x ∈ p.sq.replay, mine x ∧ x.seq = n) →
        p.voidedSlot c = .reading n false reads)
      ∧ (∀ n payload, p.sq.slot = .ready n payload → (∃ x ∈ p.sq.replay, mine x ∧ x.seq = n) →
          p.voidedSlot c = .empty)
      ∧ ((∀ n w reads, p.sq.slot = .reading n w reads → ∀ x ∈ p.sq.replay, mine x → x.seq ≠ n) →
          (∀ n payload, p.sq.slot = .ready n payload → ∀ x ∈ p.sq.replay, mine x → x.seq ≠ n) →
          p.voidedSlot c = p.sq.slot) := by
  intro mine
  have hit {n : Seq} : (p.sq.replay.any fun e => e.isDataOf c && decide (e.seq = n)) = true ↔
      ∃ x ∈ p.sq.replay, mine x ∧ x.seq = n := by
    simp only [List.any_eq_true, Bool.and_eq_true, ReplayEntry.isDataOf_iff, decide_eq_true_eq, mine]
  unfold Part.voidedSlot
  refine ⟨fun n w reads slot here => ?_, fun n payload slot here => ?_, fun read ready => ?_⟩
  · rw [slot, ReplaySlot.dropIf, if_pos (hit.2 here)]
  · rw [slot, ReplaySlot.dropIf, if_pos (hit.2 here)]
  · cases slot : p.sq.slot with
    | empty => rfl
    | reading n w reads =>
      rw [ReplaySlot.dropIf, if_neg]
      exact fun here => let ⟨x, member, isMine, same⟩ := hit.1 here; read n w reads slot x member isMine same
    | ready n payload =>
      rw [ReplaySlot.dropIf, if_neg]
      exact fun here => let ⟨x, member, isMine, same⟩ := hit.1 here; ready n payload slot x member isMine same

section
variable {p : Part} {k : Nat} {result : ReadEnd} {n : Seq} {wanted : Bool} {reads : List HostRead}

theorem Part.refetch_of_data {c : Fin 32} {i : Fin 64} {index offset length : Nat} {first last : Bool} {mark : BitVec 16}
    (running : p.hi.deviceState = .running) (none' : p.lk.teardown = none) (empty : p.sq.slot = .empty)
    (rewind : p.sq.rewind = some n)
    (entry : p.sq.entry? n = some ⟨n, .data c i index offset length first last mark⟩) : p.refetch =
      (let reads := payloadReads (p.context c).fragments offset length
      { p with
        sq := { p.sq with slot := .reading n true reads }
        hi := { p.hi with
          accesses := p.hi.accesses ++ reads.mapIdx fun j r => ⟨.refetchRead j, r.address, r.length, []⟩ } }) := by
  have may : p.mayRefetch = true := by simp [Part.mayRefetch, Part.running, running, none', empty]
  simp only [Part.refetch, may, Bool.not_true, Bool.false_eq_true, if_false, Part.rewindEntry, rewind, entry,
    readAccesses_eq, Nat.zero_add, Part.issueAll]

theorem Part.refetch_of_not (shut : p.lk.teardown ≠ none ∨ p.sq.slot ≠ .empty ∨ p.sq.rewind = none) :
    p.refetch = p := by
  rcases shut with pending | busy | none'
  · simp [Part.refetch, Part.mayRefetch, pending]
  · simp [Part.refetch, Part.mayRefetch, busy]
  · simp [Part.refetch, Part.rewindEntry, none']

theorem Part.refetchRead_of_waits (reading : p.sq.slot = .reading n wanted reads)
    (waits : ∃ r ∈ endRead reads k result, r.result = none) : p.refetchRead k result =
      { p with sq := { p.sq with slot := .reading n wanted (endRead reads k result) } } := by
  simp [Part.refetchRead, reading, readsEnded_false waits]

theorem Part.refetchRead_of_dropped (reading : p.sq.slot = .reading n false reads)
    (ended : ∀ r ∈ endRead reads k result, r.result ≠ none) :
    p.refetchRead k result = { p with sq := { p.sq with slot := .empty } } := by
  simp [Part.refetchRead, reading, (readsEnded_iff _).2 ended]

theorem Part.refetchRead_of_data {parts : List (List Byte)} (reading : p.sq.slot = .reading n true reads)
    (data : (endRead reads k result).map HostRead.result = parts.map fun b => some (.data b)) :
    p.refetchRead k result = { p with sq := { p.sq with slot := .ready n parts.flatten } } := by
  obtain ⟨payload, ended⟩ := readsPayload_of_data _ _ data
  simp [Part.refetchRead, reading, payload, ended]

theorem Part.refetchRead_of_failed (reading : p.sq.slot = .reading n true reads)
    (ended : ∀ r ∈ endRead reads k result, r.result ≠ none)
    (failed : ∃ r ∈ endRead reads k result, r.result = some .failed) :
    p.refetchRead k result = p.refetchFault n := by
  simp [Part.refetchRead, reading, (readsEnded_iff _).2 ended, readsPayload_of_failed _ failed]

end

theorem exec_refetchEnd {s : State} {k : Nat} {result : ReadEnd} {a : Access} (running : s.hi.deviceState = .running)
    (inFlight : s.access? (.refetchRead k) = some a) (length : result.hasLength a.length = true) :
    exec (.refetchEnd k result) s = s.become ((s.endAccess (.refetchRead k)).refetchRead k result).settle :=
  exec_of_effect (Part.onReadEnd_delivered inFlight (readAnswers_of_hasLength length) running)

/-- Settles O31. -/
theorem refetchEffect : Obligations.RefetchEffect := by
  refine ⟨fun p c => ⟨_, p.voidEntries_eq c, p.voidedSlot_spec c⟩, fun s running => ⟨?_, ?_, ?_⟩⟩
  · intro n c i index offset length first last mark none' empty rewind entry
    exact exec_of_effect (Part.refetch_of_data running none' empty rewind entry)
  · exact fun shut => exec_of_effect (Part.refetch_of_not shut)
  · intro k result a n wanted reads inFlight length reading
    have reading' : (s.endAccess (.refetchRead k)).sq.slot = .reading n wanted reads := reading
    rw [exec_refetchEnd running inFlight length]
    refine ⟨fun waits => ?_, fun ended dropped => ?_, fun parts data kept => ?_, ?_⟩
    · rw [Part.refetchRead_of_waits reading' waits]; rfl
    · subst dropped; rw [Part.refetchRead_of_dropped reading' ended]; rfl
    · subst kept; rw [Part.refetchRead_of_data reading' data]; rfl
    · intro c i index offset length first last mark ended failed kept entry
      subst kept
      have found : (s.endAccess (.refetchRead k)).sq.entry? n =
        some ⟨n, .data c i index offset length first last mark⟩ := entry
      rw [Part.refetchRead_of_failed reading' ended failed]
      simp only [Part.refetchFault, found]
      rfl

end Sys2Proof.Machine

/-! PROOF. Arrivals of sequenced parcels, and the exits from CLOSING and WINDING (R2, R3, R9 to R12, R18 to R22, R29,
R48 to R51, R76, R77). -/

namespace Sys2Proof.Machine

/-! ## What the number of a parcel decides (R48 to R51) -/

section
variable {p : Part} {n : Seq} {f : Part → Part}

theorem Part.sequencedArrives_deaf (deaf : ¬p.Listening) : p.sequencedArrives n f = p := by
  rw [← Part.listens_iff, Bool.not_eq_true] at deaf
  simp [Part.sequencedArrives, deaf]

theorem Part.sequencedArrives_other (listening : p.Listening) (other : n ≠ p.sq.expected) :
    p.sequencedArrives n f = if (p.sq.expected - n).toNat ≤ p.lk.window then p.duplicate else p.missedParcel := by
  simp only [Part.sequencedArrives, (Part.listens_iff p).2 listening, Bool.not_true, Bool.false_eq_true, if_false,
    if_neg other, Sequencing.behind_eq _ _ _ other, decide_eq_true_eq]

theorem Part.duplicate_eq (p : Part) : p.duplicate =
    { p with
      sq := { p.sq with note := if p.sq.note = .none then .ack else p.sq.note }
      lk := { p.lk with counters := { p.lk.counters with
        duplicates := countUp 4294967295 p.lk.counters.duplicates } } } := by
  rw [← Note.withAck_eq]; rfl

theorem Part.toStream_of_le {i : Nat} {g : Fin 64 → Part} (outside : 64 ≤ i) :
    p.toStream i g = { p with lk := p.lk.withError .streamInvalid } := by
  simp only [Part.toStream, index?, dif_neg (Nat.not_lt.2 outside), Part.linkProtocolError_eq]

/-! ### DATA, by the length of its payload (R29) -/

theorem Part.dataArrives_fits {d : DataParcel} (some' : 1 ≤ d.payload.length)
    (fits : d.payload.length ≤ p.LongestPayload) : p.dataArrives n d =
      p.sequencedArrives n fun p => p.toStream d.stream fun i => p.takeDataParcel i d := by
  simp [Part.dataArrives, Part.payloadFits, Part.payloadLimit_eq, fits, Nat.ne_of_gt some']

theorem Part.dataArrives_bad {d : DataParcel} (bad : d.payload.length = 0 ∨ p.LongestPayload < d.payload.length) :
    p.dataArrives n d = p.badArrives := by
  have outside : p.payloadFits d = false := by
    rw [← Bool.not_eq_true, Part.payloadFits, Part.payloadLimit_eq, Bool.and_eq_true, decide_eq_true_eq,
      decide_eq_true_eq]
    omega
  simp only [Part.dataArrives, outside, Bool.false_eq_true, if_false]

theorem Part.longestPayload_of_listening (listening : p.Listening) : p.LongestPayload = p.lk.payloadSize :=
  if_pos listening.1

end

/-! ### The commands as sequenced arrivals -/

section
variable (s : State) (n : Seq)

theorem exec_voidArrival : exec (.voidArrival n) s = s.become (s.sequencedArrives n fun p => p) := rfl

theorem exec_grantArrival (g : GrantParcel) : exec (.grantArrival n g) s =
    s.become (s.sequencedArrives n fun p => p.toStream g.stream fun i => p.takeGrant i g) := rfl

theorem exec_withdrawArrival (i : Nat) : exec (.withdrawArrival n i) s =
    s.become (s.sequencedArrives n fun p => (p.toStream i fun i => p.takeWithdraw i).settle) := rfl

theorem exec_cutArrival (i : Nat) : exec (.cutArrival n i) s =
    s.become (s.sequencedArrives n fun p => p.toStream i fun i => p.takeCut i) := rfl

theorem exec_dataArrival {d : DataParcel} (some' : 1 ≤ d.payload.length) (fits : d.payload.length ≤ s.LongestPayload) :
    exec (.dataArrival n d) s =
      s.become (s.sequencedArrives n fun p => p.toStream d.stream fun i => p.takeDataParcel i d) :=
  exec_of_effect (Part.dataArrives_fits some' fits)

end

/-- A parcel of any kind that is not accepted acts as a VOID. -/
theorem sequencedArrives_void {s : State} {n : Seq} (dropped : ¬(s.Listening ∧ n = s.sq.expected))
    (f : Part → Part) : s.become (s.sequencedArrives n f) = exec (.voidArrival n) s :=
  congrArg s.become (Part.sequencedArrives_dropped dropped _ _)

/-- Settles O18. -/
theorem sequencedNumbers : Obligations.SequencedNumbers := by
  refine ⟨fun s n => ⟨fun deaf => ?_, ?_, fun listening other behind => ?_, fun listening ahead quiet => ?_,
    fun listening ahead pending => ?_, fun dropped => ⟨fun g => ?_, fun i => ?_, fun d some' fits => ?_, fun i => ?_⟩⟩,
    fun s listening => ⟨fun g outside => ?_, fun i outside => ⟨?_, ?_⟩, fun d outside some' fits => ?_⟩,
    fun s n d bytes bad unread => ?_⟩
  · rw [exec_voidArrival, Part.sequencedArrives_deaf deaf]
  · rintro listening rfl
    rw [exec_voidArrival, Part.sequencedArrives_expected listening]
  · rw [exec_voidArrival, Part.sequencedArrives_other listening other, if_pos behind, Part.duplicate_eq]
  · have other : n ≠ s.sq.expected := by rintro rfl; simp at ahead
    rw [exec_voidArrival, Part.sequencedArrives_other listening other, if_neg (Nat.not_le.2 ahead),
      Part.missedParcel_of_not_pending quiet]
  · have other : n ≠ s.sq.expected := by rintro rfl; simp at ahead
    rw [exec_voidArrival, Part.sequencedArrives_other listening other, if_neg (Nat.not_le.2 ahead),
      Part.missedParcel_of_pending pending]
  · exact sequencedArrives_void dropped _
  · exact sequencedArrives_void dropped _
  · exact (exec_dataArrival s n some' fits).trans (sequencedArrives_void dropped _)
  · exact sequencedArrives_void dropped _
  · rw [exec_grantArrival, Part.sequencedArrives_expected listening, Part.toStream_of_le outside]
    rfl
  · rw [exec_withdrawArrival, Part.sequencedArrives_expected listening, Part.toStream_of_le outside]
    rfl
  · rw [exec_cutArrival, Part.sequencedArrives_expected listening, Part.toStream_of_le outside]
    rfl
  · have fits' := Nat.le_trans fits (Nat.le_of_eq (Part.longestPayload_of_listening listening).symm)
    rw [exec_dataArrival _ _ some' fits', Part.sequencedArrives_expected listening, Part.toStream_of_le outside]
    rfl
  · exact congrArg s.become ((Part.dataArrives_bad bad).trans (Part.bytesArrive_of_none unread).symm)

/-! ## DATA (R76, R77) -/

/-- A DATA parcel with the expected number goes to its stream after its acceptance. -/
theorem exec_dataArrival_expected {s : State} {d : DataParcel} {i : Fin 64} (listening : s.Listening)
    (names : d.stream = i.val) (some' : 1 ≤ d.payload.length) (fits : d.payload.length ≤ s.lk.payloadSize) :
    exec (.dataArrival s.sq.expected d) s = s.become (s.accepted.takeDataParcel i d) := by
  have fits' := Nat.le_trans fits (Nat.le_of_eq (Part.longestPayload_of_listening listening).symm)
  rw [exec_dataArrival _ _ some' fits', Part.sequencedArrives_expected listening, names, Part.toStream_val]

section
variable {p : Part} {i : Fin 64} {d : DataParcel}

theorem Part.takeDataParcel_stored (opened : (p.stream i).state = .opened)
    (room : (p.stream i).occupancy < (p.stream i).allotment) : p.takeDataParcel i d =
      (Part.askClaim
        { p with
          streams := p.streams.set i { p.stream i with occupancy := (p.stream i).occupancy + 1 }
          ib := { p.ib with
            freeCount := p.ib.freeCount - 1
            queues := p.ib.queues.set i (p.queue i ++ [.data ⟨d.index, d.first, d.last, d.mark, d.payload⟩]) } }
        i).refreshRing (p.stream i).landingRing := by
  unfold Part.takeDataParcel
  dsimp only
  split
  · rw [if_pos room]; rfl
  · rename_i closing; rw [opened] at closing; cases closing
  · rename_i other _; exact absurd opened other

theorem Part.takeDataParcel_full (opened : (p.stream i).state = .opened)
    (full : (p.stream i).allotment ≤ (p.stream i).occupancy) :
    p.takeDataParcel i d = p.withStreamError i .dataExcess := by
  simp only [Part.takeDataParcel, opened, if_neg (Nat.not_lt.2 full), Part.streamProtocolError_eq]

theorem Part.takeDataParcel_closing (closing : (p.stream i).state = .closing) : p.takeDataParcel i d = p := by
  simp only [Part.takeDataParcel, closing]

theorem Part.takeDataParcel_other (notOpened : (p.stream i).state ≠ .opened)
    (notClosing : (p.stream i).state ≠ .closing) : p.takeDataParcel i d = p.withStreamError i .dataUnexpected := by
  unfold Part.takeDataParcel
  dsimp only
  split
  · exact absurd ‹_› notOpened
  · exact absurd ‹_› notClosing
  · exact Part.streamProtocolError_eq ..

end

/-- Settles O19. -/
theorem dataArrivalEffect : Obligations.DataArrivalEffect := by
  intro s d i listening names some' fits
  dsimp only
  rw [exec_dataArrival_expected listening names some' fits]
  refine ⟨fun opened room => ?_, fun opened full => ?_, fun closing => ?_, fun notOpened notClosing => ?_⟩
  · exact congrArg s.become (Part.takeDataParcel_stored (p := s.accepted) opened room)
  · exact congrArg s.become (Part.takeDataParcel_full (p := s.accepted) opened full)
  · exact congrArg s.become (Part.takeDataParcel_closing (p := s.accepted) closing)
  · exact congrArg s.become (Part.takeDataParcel_other (p := s.accepted) notOpened notClosing)

/-! ## WITHDRAW and CUT (R9 to R12) -/

theorem exec_withdrawArrival_expected {s : State} {i : Fin 64} (listening : s.Listening) :
    exec (.withdrawArrival s.sq.expected i.val) s = s.become (s.accepted.takeWithdraw i).settle := by
  rw [exec_withdrawArrival, Part.sequencedArrives_expected listening, Part.toStream_val]

theorem exec_cutArrival_expected {s : State} {i : Fin 64} (listening : s.Listening) :
    exec (.cutArrival s.sq.expected i.val) s = s.become (s.accepted.takeCut i) := by
  rw [exec_cutArrival, Part.sequencedArrives_expected listening, Part.toStream_val]

section
variable {p : Part} {i : Fin 64}

theorem Part.takeWithdraw_winds
    (heard : (p.stream i).state = .offered ∨ (p.stream i).state = .localOpen ∨ (p.stream i).state = .opened) :
    p.takeWithdraw i =
      (((((p.modStream i StreamEntry.wind).queueWithdraw i).decideAll (p.stream i).sendLine .peerClosed
        ).dropStagedOfStream i).appendInbound i .withdrawMarker).refreshRing (p.stream i).landingRing := by
  rcases heard with state | state | state <;> simp only [Part.takeWithdraw, state]

theorem Part.takeWithdraw_closed (closed : (p.stream i).state = .closed) :
    p.takeWithdraw i = p.withStreamError i .withdrawUnexpected := by
  simp only [Part.takeWithdraw, closed, Part.streamProtocolError_eq]

/-- In the states that end a stream a WITHDRAW discards the pending offer, is seen, or is an error (R11). -/
theorem Part.takeWithdraw_ending (ending : (p.stream i).state = .closing ∨ (p.stream i).state = .winding
      ∨ (p.stream i).state = .disrupted) : p.takeWithdraw i =
      if (p.stream i).offer.isSome then
        (p.modStream i fun e => { e with offer := none, withdrawSequenced := false }).queueWithdraw i
      else if (p.stream i).state = .closing && !(p.stream i).peerWithdrawSeen then
        (p.modStream i fun e => { e with peerWithdrawSeen := true }).exitTest i
      else p.withStreamError i .withdrawUnexpected := by
  rcases ending with state | state | state <;> simp only [Part.takeWithdraw, state, Part.streamProtocolError_eq]

theorem Part.takeCut_eq (p : Part) (i : Fin 64) : p.takeCut i =
    if (p.stream i).state = .opened ∧ .cutMarker ∉ p.queue i then
      (p.appendInbound i .cutMarker).refreshRing (p.stream i).landingRing
    else p := by
  have fresh : (!(p.queue i).any fun x => decide (x = .cutMarker)) = true ↔ .cutMarker ∉ p.queue i := by
    simp only [Bool.not_eq_true', ← Bool.not_eq_true, List.any_eq_true, decide_eq_true_eq, exists_eq_right]
  simp only [Part.takeCut, Bool.and_eq_true, decide_eq_true_eq, fresh]

end

/-- Settles O21. -/
theorem withdrawAndCutArrivals : Obligations.WithdrawAndCutArrivals := by
  refine ⟨fun s i listening heard => ?_, fun s i listening => ⟨fun closed => ?_, fun ending o offer => ?_,
    fun closing none' unseen => ?_, fun other none' => ?_⟩, fun s i listening => ⟨fun opened fresh => ?_,
    fun other => ?_⟩, fun p outcome => ⟨rfl, fun c rest => rfl⟩, fun p i => ⟨fun d wanted reads slot here => ?_,
    fun d payload slot here => ?_, fun reading ready => ?_⟩⟩
  · rw [exec_withdrawArrival_expected listening, Part.takeWithdraw_winds (p := s.accepted) heard,
      Part.queueWithdraw_eq]
    rfl
  · rw [exec_withdrawArrival_expected listening, Part.takeWithdraw_closed (p := s.accepted) closed]
  · have some' : (s.accepted.stream i).offer.isSome = true := Option.isSome_iff_exists.2 ⟨o, offer⟩
    rw [exec_withdrawArrival_expected listening, Part.takeWithdraw_ending (p := s.accepted) ending, if_pos some',
      Part.queueWithdraw_eq]
    rfl
  · have empty : ¬(s.accepted.stream i).offer.isSome = true := Option.not_isSome_iff_eq_none.2 none'
    have first : (decide ((s.accepted.stream i).state = .closing) && !(s.accepted.stream i).peerWithdrawSeen) = true :=
      (StreamEntry.ignoresGrant_iff _).2 ⟨closing, unseen⟩
    rw [exec_withdrawArrival_expected listening, Part.takeWithdraw_ending (p := s.accepted) (.inl closing),
      if_neg empty, if_pos first]
    rfl
  · have empty : ¬(s.accepted.stream i).offer.isSome = true := Option.not_isSome_iff_eq_none.2 none'
    have ending : (s.stream i).state = .closing ∨ (s.stream i).state = .winding ∨ (s.stream i).state = .disrupted :=
      other.imp_left And.left
    have second : ¬(decide ((s.accepted.stream i).state = .closing) && !(s.accepted.stream i).peerWithdrawSeen)
        = true := by
      rw [StreamEntry.ignoresGrant_iff]
      rintro ⟨closing, unseen⟩
      have closing : (s.stream i).state = .closing := closing
      have unseen : (s.stream i).peerWithdrawSeen = false := unseen
      rcases other with ⟨_, seen⟩ | state | state
      · exact Bool.false_ne_true (unseen.symm.trans seen)
      · rw [closing] at state; cases state
      · rw [closing] at state; cases state
    rw [exec_withdrawArrival_expected listening, Part.takeWithdraw_ending (p := s.accepted) ending, if_neg empty,
      if_neg second]
  · rw [exec_cutArrival_expected listening, Part.takeCut_eq s.accepted, if_pos ⟨opened, fresh⟩]
    rfl
  · rw [exec_cutArrival_expected listening, Part.takeCut_eq s.accepted, if_neg]
    rintro ⟨opened, fresh⟩
    exact other.elim (· opened) fresh
  · simp [Part.dropStagedOfStream, slot, Staging.parcel?, here, Staging.drop]
  · simp [Part.dropStagedOfStream, slot, Staging.parcel?, here, Staging.drop]
  · cases slot : p.tx.staging with
    | empty => simp [Part.dropStagedOfStream, slot, Staging.parcel?]
    | reading d wanted reads =>
      simp [Part.dropStagedOfStream, slot, Staging.parcel?, reading d wanted reads slot]
    | ready d payload => simp [Part.dropStagedOfStream, slot, Staging.parcel?, ready d payload slot]

/-! ## The exits from CLOSING and WINDING (R2, R3, R18, R19, R22) -/

section
variable {p : Part} {i : Fin 64}

theorem Part.closeInProgress_iff (p : Part) (i : Fin 64) : p.closeInProgress i = true ↔
    ∃ tag, p.cm.command = some ⟨.streamClose i.val, tag, .acting⟩ := by
  unfold Part.closeInProgress
  split
  · rename_i j tag waits
    simp [waits]
  · rename_i other
    simp only [Bool.false_eq_true, false_iff]
    rintro ⟨tag, waits⟩
    exact other _ _ waits

theorem Part.reportClose_waiting {status : Status} {tag : BitVec 32}
    (waits : p.cm.command = some ⟨.streamClose i.val, tag, .acting⟩) : p.reportClose i status =
      { p with cm := { p.cm with command := some ⟨.streamClose i.val, tag, .offered status⟩ } } := by
  rw [Part.reportClose, if_pos ((p.closeInProgress_iff i).2 ⟨tag, waits⟩), Part.completeCommand, waits]
  rfl

theorem Part.reportClose_other {status : Status}
    (other : ∀ tag, p.cm.command ≠ some ⟨.streamClose i.val, tag, .acting⟩) : p.reportClose i status = p := by
  rw [Part.reportClose, if_neg]
  rw [Part.closeInProgress_iff]
  exact fun ⟨tag, waits⟩ => other tag waits

/-- A stream has done what it needs to leave CLOSING (R18). -/
def StreamEntry.ClosingDone (e : StreamEntry) : Prop := e.withdrawSequenced = true ∧ e.peerWithdrawSeen = true

/-- A stream has done what it needs to leave WINDING (R19). -/
def StreamEntry.WindingDone (e : StreamEntry) : Prop := e.withdrawSequenced = true ∧ e.markerProcessed = true

theorem Part.exitTest_closing (closing : (p.stream i).state = .closing) : p.exitTest i =
    if (p.stream i).withdrawSequenced && (p.stream i).peerWithdrawSeen && p.quiet i then
      (p.modStream i StreamEntry.leave).reportClose i .ok
    else p := by
  simp only [Part.exitTest, closing]

theorem Part.exitTest_winding (winding : (p.stream i).state = .winding) : p.exitTest i =
    if (p.stream i).withdrawSequenced && (p.stream i).markerProcessed && p.quiet i then
      if (p.stream i).closeWaiting then ((p.release i).modStream i StreamEntry.leave).reportClose i .ok
      else ((p.release i).modStream i StreamEntry.leave).modStream i fun e => { e with endedFlag := true }
    else p := by
  simp only [Part.exitTest, winding]

theorem Part.exitTest_other (notClosing : (p.stream i).state ≠ .closing) (notWinding : (p.stream i).state ≠ .winding) :
    p.exitTest i = p := by
  unfold Part.exitTest
  dsimp only
  split
  · exact absurd ‹_› notClosing
  · exact absurd ‹_› notWinding
  · rfl

/-- The stream leaves WINDING with its allotment released; the release is nothing the new incarnation keeps. -/
theorem Part.release_leave (p : Part) (i : Fin 64) : (p.release i).modStream i StreamEntry.leave =
    { p with
      ib := { p.ib with reservedTotal := p.ib.reservedTotal - (p.stream i).allotment }
      streams := p.streams.set i (p.stream i).leave } := by
  simp only [Part.release, Part.modStream, Table.modify, Part.stream, Table.get_set_self, Table.set_set]
  rfl

end

/-- Settles O22. -/
theorem streamExits : Obligations.StreamExits := by
  refine ⟨fun p i status => ⟨fun tag => Part.reportClose_waiting, Part.reportClose_other⟩, ?_⟩
  intro p i e quiet leave
  have leaves : e.leave = leave e := by
    simp only [StreamEntry.leave, leave]
    cases e.offer <;> rfl
  have quiet_iff : p.quiet i = true ↔ quiet := p.quiet_iff i
  refine ⟨fun closing sequenced seen isQuiet => ?_, fun winding sequenced processed isQuiet => ?_,
    fun notClosing notWinding => ?_⟩
  · rw [Part.exitTest_closing closing, if_pos, ← leaves]
    · rfl
    · rw [show (p.stream i).withdrawSequenced = true from sequenced,
        show (p.stream i).peerWithdrawSeen = true from seen, quiet_iff.2 isQuiet]
      rfl
  · have test : ((p.stream i).withdrawSequenced && (p.stream i).markerProcessed && p.quiet i) = true := by
      rw [show (p.stream i).withdrawSequenced = true from sequenced,
        show (p.stream i).markerProcessed = true from processed, quiet_iff.2 isQuiet]
      rfl
    rw [Part.exitTest_winding winding, if_pos test, Part.release_leave, ← leaves]
    refine ⟨fun waits => if_pos waits, fun free => ?_⟩
    rw [if_neg (by rw [show (p.stream i).closeWaiting = false from free]; exact Bool.false_ne_true)]
    simp only [Part.modStream, Table.modify, Table.get_set_self, Table.set_set]
    rfl
  · by_cases closing : (p.stream i).state = .closing
    · rw [Part.exitTest_closing closing, if_neg]
      rw [Bool.and_eq_true, Bool.and_eq_true, quiet_iff, and_assoc]
      exact notClosing closing
    · by_cases winding : (p.stream i).state = .winding
      · rw [Part.exitTest_winding winding, if_neg]
        rw [Bool.and_eq_true, Bool.and_eq_true, quiet_iff, and_assoc]
        exact notWinding winding
      · exact Part.exitTest_other closing winding

end Sys2Proof.Machine

/-! PROOF. Acknowledgements, the sequencing timers, and the outcomes of send contexts (R39, R46, R49, R56 to R59, R65,
R66, R99 to R105, R118). -/

namespace Sys2Proof.Machine

/-! ## The refetch slot, by the entries that go (R63 to R65) -/

theorem ReplaySlot.dropIf_eq (slot : ReplaySlot) {unwanted : Seq → Bool} {gone : Seq → Prop} [DecidablePred gone]
    (same : ∀ n, unwanted n = true ↔ gone n) : slot.dropIf unwanted =
      match slot with
      | .empty => .empty
      | .reading seq w reads => if gone seq then .reading seq false reads else .reading seq w reads
      | .ready seq payload => if gone seq then .empty else .ready seq payload := by
  cases slot <;> simp only [ReplaySlot.dropIf, same]

/-- A rewind keeps a refetch of the entry rewound to, and drops any other. -/
theorem Part.rewindTo_eq (p : Part) (n : Seq) : p.rewindTo n =
    { p with sq := { p.sq with
        rewind := some n
        slot :=
          match p.sq.slot with
          | .empty => .empty
          | .reading seq w reads => if seq = n then .reading seq w reads else .reading seq false reads
          | .ready seq payload => if seq = n then .ready seq payload else .empty } } := by
  rw [Part.rewindTo, ReplaySlot.dropIf_eq _ fun seq => decide_eq_true_iff]
  cases p.sq.slot <;> simp only [ite_not]

/-! ## Acknowledgements (R46, R56 to R58) -/

theorem if_isEmpty {α β : Type} (l : List α) (a b : β) [Decidable (l = [])] :
    (if l.isEmpty = true then a else b) = if l = [] then a else b := by
  cases l <;> simp

section
variable {p : Part} {n : Seq}

theorem Part.removeBefore_none (none' : p.sq.before n = []) : p.removeBefore n = p := by
  rw [Part.removeBefore, none']; rfl

/-- The entries before a number on the list go (R56, R63). -/
theorem Part.removeBefore_some (some' : p.sq.before n ≠ []) : p.removeBefore n =
    (let gone := (n - p.sq.oldest).toNat
    let rest := p.sq.replay.drop gone
    let removed := p.sq.replay.take gone
    { p with sq := { p.sq with
        replay := rest, replayCount := 0
        replayTimer := if rest = [] then .idle else .running p.cm.timers.replayTimeout
        rewind :=
          match p.sq.rewind with
          | none => none
          | some w => if rest = [] then none else if (w - p.sq.oldest).toNat < gone then some n else some w
        slot :=
          match p.sq.slot with
          | .empty => .empty
          | .reading seq w reads =>
            if ∃ x ∈ removed, x.seq = seq then .reading seq false reads else .reading seq w reads
          | .ready seq payload => if ∃ x ∈ removed, x.seq = seq then .empty else .ready seq payload } }) := by
  have listed (seq : Seq) : ((p.sq.before n).any fun e => decide (e.seq = seq)) = true ↔
      ∃ x ∈ p.sq.before n, x.seq = seq := by
    simp only [List.any_eq_true, decide_eq_true_eq]
  rw [Part.removeBefore, if_neg (by simpa using some'), ReplaySlot.dropIf_eq _ listed]
  simp only [if_isEmpty]
  cases p.sq.slot <;> cases p.sq.rewind <;> rfl

theorem Part.acknowledge_next (p : Part) (n : Seq) : (p.acknowledge n).sq.next = p.sq.next := by
  rw [Part.acknowledge, Part.acknowledgedAll_sq]
  unfold Part.removeBefore
  split <;> rfl

theorem Part.acknowledge_nothing (none' : p.sq.before n = []) : p.acknowledge n = p := by
  rw [Part.acknowledge, Part.removeBefore_none none', Sequencing.acknowledgedContexts, none']
  rfl

theorem Part.ackArrives_deaf (deaf : ¬p.Listening) : p.ackArrives n = p := by
  rw [← Part.listens_iff, Bool.not_eq_true] at deaf
  simp only [Part.ackArrives, deaf, Bool.not_false, if_true]

theorem Part.ackArrives_eq (listening : p.Listening) : p.ackArrives n =
    if (n - p.sq.oldest).toNat ≤ (p.sq.next - p.sq.oldest).toNat then (p.acknowledge n).settle
    else p.countStaleAck := by
  simp only [Part.ackArrives, (Part.listens_iff p).2 listening, Bool.not_true, Bool.false_eq_true, if_false,
    Sequencing.within_iff]

theorem Part.retryArrives_deaf (deaf : ¬p.Listening) : p.retryArrives n = p := by
  rw [← Part.listens_iff, Bool.not_eq_true] at deaf
  simp only [Part.retryArrives, deaf, Bool.not_false, if_true]

theorem Part.retryArrives_eq (listening : p.Listening) : p.retryArrives n =
    if (n - p.sq.oldest).toNat ≤ (p.sq.next - p.sq.oldest).toNat then
      (if n = p.sq.next then p.countRetryReceived.acknowledge n
      else (p.countRetryReceived.acknowledge n).rewindTo n).settle
    else p.countRetryReceived.countStaleAck := by
  have counted : p.countRetryReceived.sq = p.sq := rfl
  simp only [Part.retryArrives, (Part.listens_iff p).2 listening, Bool.not_true, Bool.false_eq_true, if_false,
    Sequencing.within_iff, Part.acknowledge_next, counted]

end

/-- Settles O23. -/
theorem acknowledgementArrivals : Obligations.AcknowledgementArrivals := by
  refine ⟨fun s n deaf => ⟨?_, ?_⟩, fun s n listening => ⟨fun outside => ?_, fun inside none' => ?_,
    fun inside some' => ?_⟩, fun s n listening => ⟨fun outside => ?_, fun inside newest => ?_,
    fun inside older => ?_⟩⟩
  · exact exec_of_effect (Part.ackArrives_deaf deaf)
  · exact exec_of_effect (Part.retryArrives_deaf deaf)
  · exact exec_of_effect ((Part.ackArrives_eq listening).trans (if_neg outside))
  · refine exec_of_effect ((Part.ackArrives_eq listening).trans ((if_pos inside).trans ?_))
    rw [Part.acknowledge_nothing none']
  · refine exec_of_effect ((Part.ackArrives_eq listening).trans ((if_pos inside).trans ?_))
    rw [Part.acknowledge, Part.removeBefore_some some']
    rfl
  · exact exec_of_effect ((Part.retryArrives_eq listening).trans (if_neg outside))
  · refine exec_of_effect ((Part.retryArrives_eq listening).trans ((if_pos inside).trans ?_))
    rw [if_pos newest]
    rfl
  · refine exec_of_effect ((Part.retryArrives_eq listening).trans ((if_pos inside).trans ?_))
    rw [if_neg older, Part.rewindTo_eq]
    rfl

/-! ## The sequencing timers (R39, R49, R59) -/

section
variable {p : Part} {k : Nat}

theorem Part.replayExpiry_within (runs : p.sq.replayTimer = .running k)
    (within : p.sq.replayCount + 1 ≤ p.cm.timers.replayLimit) : p.replayExpiry =
      Part.rewindTo { p with sq := { p.sq with
        replayCount := p.sq.replayCount + 1, replayTimer := .running p.cm.timers.replayTimeout } } p.sq.oldest := by
  simp only [Part.replayExpiry, runs, Timer.isRunning, Bool.not_true, Bool.false_eq_true, if_false,
    if_neg (Nat.not_lt.2 within)]
  rfl

/-- The part once the replay count has passed the limit. -/
def Part.pastLimit (p : Part) : Part :=
  { p with sq := { p.sq with replayCount := p.sq.replayCount + 1, replayTimer := .idle } }

theorem Part.replayExpiry_past (runs : p.sq.replayTimer = .running k)
    (past : p.cm.timers.replayLimit < p.sq.replayCount + 1) : p.replayExpiry =
      if p.lk.state = .up && p.lk.teardown.isNone then
        (p.pastLimit.countLinkFault.beginTeardown .replayLimit none).settle
      else p.pastLimit := by
  simp only [Part.replayExpiry, runs, Timer.isRunning, Bool.not_true, Bool.false_eq_true, if_false, if_pos past]
  rfl

end

/-- Settles O24. -/
theorem sequencingTimers : Obligations.SequencingTimers := by
  refine fun s k => ⟨fun runs => ?_, fun runs within => ?_, fun runs past => ⟨fun listening => ⟨fun free => ?_,
    fun busy => ?_⟩, fun deaf => ?_⟩⟩
  · refine exec_of_effect (show Part.ackDelayExpires _ = _ from ?_)
    simp only [Part.ackDelayExpires, runs, Timer.isRunning, if_true, Part.noteAck, Note.withAck_eq]
  · exact exec_of_effect ((Part.replayExpiry_within runs within).trans (Part.rewindTo_eq _ _))
  · have test : (decide (s.lk.state = .up) && s.lk.teardown.isNone) = true := (Part.listens_iff _).2 listening
    obtain ⟨up, none'⟩ := listening
    refine exec_of_effect ((Part.replayExpiry_past runs past).trans ((if_pos test).trans ?_))
    rw [Part.beginTeardown_free s.toPart.pastLimit.countLinkFault up none']
    rfl
  · have test : (decide (s.lk.state = .up) && s.lk.teardown.isNone) = true := (Part.listens_iff _).2 listening
    obtain ⟨up, none'⟩ := listening
    refine exec_of_effect ((Part.replayExpiry_past runs past).trans ((if_pos test).trans ?_))
    rw [Part.beginTeardown_busy s.toPart.pastLimit.countLinkFault up none' busy]
    rfl
  · have test : ¬(decide (s.lk.state = .up) && s.lk.teardown.isNone) = true := mt (Part.listens_iff _).1 deaf
    exact exec_of_effect ((Part.replayExpiry_past runs past).trans (if_neg test))

/-! ## Outcomes (R66, R99 to R105, R118) -/

section
variable {p : Part} {c : Fin 32} {d : Described}

theorem Part.dropStagedOfContext_reading {wanted : Bool} {reads : List HostRead}
    (slot : p.tx.staging = .reading d wanted reads) (mine : d.context = c) : p.dropStagedOfContext c =
      { p with tx := { p.tx with staging := .reading d false reads } } := by
  simp [Part.dropStagedOfContext, slot, Staging.parcel?, mine, Staging.drop]

theorem Part.dropStagedOfContext_ready {payload : List Byte} (slot : p.tx.staging = .ready d payload)
    (mine : d.context = c) : p.dropStagedOfContext c = { p with tx := { p.tx with staging := .empty } } := by
  simp [Part.dropStagedOfContext, slot, Staging.parcel?, mine, Staging.drop]

theorem Part.dropStagedOfContext_other
    (reading : ∀ d wanted reads, p.tx.staging = .reading d wanted reads → d.context ≠ c)
    (ready : ∀ d payload, p.tx.staging = .ready d payload → d.context ≠ c) : p.dropStagedOfContext c = p := by
  cases slot : p.tx.staging with
  | empty => simp [Part.dropStagedOfContext, slot, Staging.parcel?]
  | reading d wanted reads =>
    simp [Part.dropStagedOfContext, slot, Staging.parcel?, reading d wanted reads slot]
  | ready d payload => simp [Part.dropStagedOfContext, slot, Staging.parcel?, ready d payload slot]

/-- The part with a context's outcome decided, before its stream's exit is tested. -/
def Part.outcomeTaken (p : Part) (c : Fin 32) (i : Fin 64) (outcome : Status) : Part :=
  { p with
    sf := p.sf.completed c outcome
    streams := p.streams.set i
      { p.stream i with sendLine := (p.stream i).sendLine.filter fun x => decide (x ≠ c) }
    sq := if outcome = .ok then p.sq else (p.voidEntries c).sq
    tx := (p.dropStagedOfContext c).tx }

/-- A context with its outcome, its staged parcel dropped and its replay entries void. -/
theorem Part.completed_dropped (p : Part) (c : Fin 32) (outcome : Status) :
    (if outcome = .ok then (p.completeContext c outcome).dropStagedOfContext c
      else ((p.completeContext c outcome).dropStagedOfContext c).voidEntries c) =
    { p with
      sf := p.sf.completed c outcome
      sq := if outcome = .ok then p.sq else (p.voidEntries c).sq
      tx := (p.dropStagedOfContext c).tx } := by
  have dropped : (p.completeContext c outcome).dropStagedOfContext c =
      { p with sf := p.sf.completed c outcome, tx := (p.dropStagedOfContext c).tx } := by
    rw [Part.completeContext_eq]
    unfold Part.dropStagedOfContext
    dsimp only
    split <;> rfl
  rw [dropped]
  split <;> rfl

theorem Part.decideContext_eq {i : Fin 64} (stream : (p.context c).stream = i.val) (outcome : Status) :
    p.decideContext c outcome =
      if ((p.outcomeTaken c i outcome).stream i).sendLine.isEmpty then (p.outcomeTaken c i outcome).exitTest i
      else p.outcomeTaken c i outcome := by
  have named : index? 64 ((p.sf.completed c outcome).contexts.get c).stream = some i := by
    rw [SendFetcher.completed, Table.get_set_self]
    rw [show (p.sf.contexts.get c).stream = i.val from stream]
    simp [index?]
  simp only [Part.decideContext, Part.completed_dropped]
  simp only [Part.leaveSendLine, Part.context, named]
  rfl

theorem Part.decideContext_sf (p : Part) (c : Fin 32) (outcome : Status) :
    (p.decideContext c outcome).sf = p.sf.completed c outcome := by
  simp only [Part.decideContext, Part.completed_dropped, Part.leaveSendLine_frame]

theorem Part.acknowledged_counts (stays : (p.context c).state ≠ .sent
      ∨ (p.context c).acknowledged + 1 ≠ (p.context c).parcelCount) : p.acknowledged c =
      p.modContext c fun x => { x with acknowledged := x.acknowledged + 1 } := by
  have test : ¬(decide ((p.context c).state = .sent) && decide ((p.context c).acknowledged + 1 = (p.context c).parcelCount))
      = true := by
    rw [Bool.and_eq_true, decide_eq_true_eq, decide_eq_true_eq]
    exact fun ⟨sent, all⟩ => stays.elim (· sent) (· all)
  simp only [Part.acknowledged, Part.context_modContext_self, if_neg test]

theorem Part.acknowledged_decides (sent : (p.context c).state = .sent)
    (all : (p.context c).acknowledged + 1 = (p.context c).parcelCount) : p.acknowledged c =
      (p.modContext c fun x => { x with acknowledged := x.acknowledged + 1 }).decideContext c .ok := by
  simp only [Part.acknowledged, Part.context_modContext_self, sent, all, decide_true, Bool.and_self, if_true]

end

/-- Settles O50. -/
theorem contextOutcomes : Obligations.ContextOutcomes := by
  refine ⟨fun p c i outcome stream => ?_, fun p c => ⟨fun stays => Part.acknowledged_counts stays, fun sent all => ?_⟩⟩
  · have line : ((p.outcomeTaken c i outcome).stream i).sendLine =
        (p.stream i).sendLine.filter fun x => decide (x ≠ c) := by
      simp only [Part.outcomeTaken, Part.stream, Table.get_set_self]
    refine ⟨p.outcomeTaken c i outcome, rfl, rfl, rfl, rfl, rfl, rfl, rfl, rfl, rfl, rfl, rfl, fun ok => if_pos ok,
      fun bad => ⟨p.voidedSlot c, (if_neg bad).trans (congrArg Part.sq (p.voidEntries_eq c)), p.voidedSlot_spec c⟩,
      fun d w reads slot mine => ?_, fun d payload slot mine => ?_, fun reading ready => ?_, fun empty => ?_,
      fun waits => ?_⟩
    · exact congrArg Part.tx (Part.dropStagedOfContext_reading slot mine)
    · exact congrArg Part.tx (Part.dropStagedOfContext_ready slot mine)
    · exact (congrArg Part.tx (Part.dropStagedOfContext_other reading ready) :)
    · rw [Part.decideContext_eq stream, line, if_pos (List.isEmpty_iff.2 empty)]
    · rw [Part.decideContext_eq stream, line, if_neg (fun empty => waits (List.isEmpty_iff.1 empty))]
  · rw [Part.acknowledged_decides sent all]
    simp only [Part.context, Part.decideContext_sf, SendFetcher.completed]
    refine ⟨?_, rfl, fun c' other => ?_⟩
    · rw [Table.get_set_self, Part.modContext, Table.get_modify_self]
    · rw [Table.get_set_of_ne _ _ other, Part.modContext, Table.get_modify_of_ne _ _ other]

end Sys2Proof.Machine

/-! PROOF. What a teardown does to every unit but LK (R20, R25, R42, R53, R68, R73, R80, R104, R121, R143). -/

namespace Sys2Proof.Machine

/-! ## The contexts that lose the link (R104) -/

/-- SF with the outcomes of some contexts decided, in their order. -/
def SendFetcher.completedAll (sf : SendFetcher) (cs : List (Fin 32)) (outcome : Status) : SendFetcher :=
  cs.foldl (fun sf c => sf.completed c outcome) sf

section
variable {sf : SendFetcher} {cs : List (Fin 32)} {c : Fin 32} {outcome : Status}

theorem SendFetcher.completedAll_line (sf : SendFetcher) (cs : List (Fin 32)) (outcome : Status) :
    (sf.completedAll cs outcome).line = sf.line ++ cs := by
  induction cs generalizing sf with
  | nil => exact (List.append_nil _).symm
  | cons c cs ih => exact (ih _).trans (List.append_assoc ..)

theorem SendFetcher.completedAll_other (other : c ∉ cs) :
    (sf.completedAll cs outcome).contexts.get c = sf.contexts.get c := by
  induction cs generalizing sf with
  | nil => rfl
  | cons d cs ih =>
    obtain ⟨notHere, notLater⟩ := not_or.1 (mt List.mem_cons.2 other)
    exact (ih notLater).trans (Table.get_set_of_ne _ _ notHere)

/-- A decided context stays decided. -/
theorem SendFetcher.completedAll_keeps (decided : (sf.contexts.get c).state = .completing
      ∧ (sf.contexts.get c).outcome = some outcome) :
    ((sf.completedAll cs outcome).contexts.get c).state = .completing
      ∧ ((sf.completedAll cs outcome).contexts.get c).outcome = some outcome := by
  induction cs generalizing sf with
  | nil => exact decided
  | cons d cs ih =>
    refine ih (sf := sf.completed d outcome) ?_
    by_cases here : c = d
    · subst here; rw [SendFetcher.completed, Table.get_set_self]; exact ⟨rfl, rfl⟩
    · rw [SendFetcher.completed, Table.get_set_of_ne _ _ here]; exact decided

theorem SendFetcher.completedAll_mem (member : c ∈ cs) :
    ((sf.completedAll cs outcome).contexts.get c).state = .completing
      ∧ ((sf.completedAll cs outcome).contexts.get c).outcome = some outcome := by
  induction cs generalizing sf with
  | nil => cases member
  | cons d cs ih =>
    rcases List.mem_cons.1 member with rfl | later
    · refine SendFetcher.completedAll_keeps (sf := sf.completed c outcome) ?_
      rw [SendFetcher.completed, Table.get_set_self]; exact ⟨rfl, rfl⟩
    · exact ih later

end

/-- The contexts that a teardown decides, by ring and fetch order. -/
def SendFetcher.losing (sf : SendFetcher) : List (Fin 32) :=
  ((numbers 4).flatMap fun r => sf.fetchOrder.get r).filter fun c => (sf.contexts.get c).undecided

theorem SendFetcher.mem_losing {sf : SendFetcher} {c : Fin 32} : c ∈ sf.losing ↔
    (∃ r, c ∈ sf.fetchOrder.get r) ∧ (sf.contexts.get c).undecided = true := by
  simp [SendFetcher.losing, numbers]

/-! ## The messages that lose the link (R143) -/

theorem mem_insertByRank {rank : Fin 8 → Nat} {r s : Fin 8} {rs : List (Fin 8)} :
    s ∈ insertByRank rank r rs ↔ s = r ∨ s ∈ rs := by
  induction rs with
  | nil => exact List.mem_cons
  | cons t rs ih =>
    unfold insertByRank
    split
    · exact List.mem_cons
    · rw [List.mem_cons, ih, List.mem_cons]; exact or_left_comm

/-- The free order has every ring. -/
theorem mem_freeOrder {n : Nat} {r : Fin 8} {rs : List (Fin 8)} : r ∈ freeOrder n rs ↔ r ∈ rs := by
  have sorted (rs : List (Fin 8)) : r ∈ rs.foldr (insertByRank fun r => Config.ringRank n r.val) [] ↔ r ∈ rs := by
    induction rs with
    | nil => rfl
    | cons s rs ih => rw [List.foldr_cons, mem_insertByRank, ih, List.mem_cons]
  unfold freeOrder
  split
  · rfl
  · rfl
  · exact sorted _

section
variable {p : Part} {r : Fin 8}

theorem Part.teardownDelivery_ring (p : Part) (r : Fin 8) :
    p.teardownDelivery.landRing r = p.ringAtTeardown (p.landRing r) := Table.get_map ..

/-- DL keeps what waited on its line, and adds the messages decided at once. -/
theorem Part.teardownDelivery_line (p : Part) : ∃ more, p.teardownDelivery.dl.line = p.dl.line ++ more
    ∧ ∀ r m, p.teardownCompletion (p.landRing r) = some m → .message r m ∈ more := by
  refine ⟨_, rfl, fun r m decided => List.mem_filterMap.2 ⟨r, mem_freeOrder.2 (List.mem_filter.2 ⟨?_, ?_⟩), ?_⟩⟩
  · exact List.mem_finRange r
  · rw [decided]; rfl
  · rw [decided]; rfl

/-- No ring keeps its holder, its claims or its gap timer, and every ring keeps its cache. -/
theorem Part.ringAtTeardown_claims (p : Part) (g : LandingRing) : (p.ringAtTeardown g).holder = none
    ∧ (p.ringAtTeardown g).claimQueue = [] ∧ (p.ringAtTeardown g).gapTimer = .idle
    ∧ (p.ringAtTeardown g).cache = g.cache := by
  unfold Part.ringAtTeardown
  dsimp only
  split <;> exact ⟨rfl, rfl, rfl, rfl⟩

variable {g : LandingRing} {m : MessageCompletion} {l : Landing}

/-- A message ended at once waits for CQ. -/
theorem Part.ringAtTeardown_some (decided : p.teardownCompletion g = some m) : (p.ringAtTeardown g).landing = none
    ∧ (p.ringAtTeardown g).current = none ∧ (p.ringAtTeardown g).waiting = some m := by
  simp only [Part.ringAtTeardown, decided, and_self]

/-- A landing in flight runs on. -/
theorem Part.ringAtTeardown_none (undecided : p.teardownCompletion g = none) :
    (p.ringAtTeardown g).landing = g.landing.map p.landingAtTeardown ∧ (p.ringAtTeardown g).current = g.current
      ∧ (p.ringAtTeardown g).waiting = g.waiting := by
  simp only [Part.ringAtTeardown, undecided, and_self]

theorem Part.teardownCompletion_assembling {i : Fin 64} (holds : g.holder = some i)
    (assembling : (p.stream i).reassembly.mode = .assembling) (noLanding : g.landing = none)
    (noWaiting : g.waiting = none) :
    p.teardownCompletion g = some ((p.stream i).messageCompletion i .linkLost) := by
  simp [Part.teardownCompletion, noLanding, Part.endsAtTeardown, holds, assembling, noWaiting]

theorem Part.teardownCompletion_waiting (noLanding : g.landing = none) (waits : g.waiting ≠ none) :
    p.teardownCompletion g = none := by
  simp only [Part.teardownCompletion, noLanding, Part.endsAtTeardown]
  split
  · rfl
  · simp [waits]

theorem Part.teardownCompletion_writes (flies : g.landing = some l) (writes : l.writes ≠ []) :
    p.teardownCompletion g = none := by
  have runs : (p.landingAtTeardown l).ended = false := by
    unfold Part.landingAtTeardown
    split <;> simp [Landing.ended, writes]
  simp only [Part.teardownCompletion, flies, Landing.keptCompletion, runs, Bool.false_eq_true, if_false]
  split <;> rfl

theorem Part.landingAtTeardown_fresh (fresh : l.kept = none) : p.landingAtTeardown l =
    { l with
      unplaced := []
      cause := if l.cause = .hostWriteFault then .hostWriteFault else .linkLost
      kept := some ⟨(p.stream l.stream).reassembly.bytesSoFar, (p.stream l.stream).reassembly.firstSlot,
        (p.stream l.stream).reassembly.lastSlot, (p.stream l.stream).reassembly.mark⟩ } := by
  simp only [Part.landingAtTeardown, fresh]

theorem Part.landingAtTeardown_kept (kept : l.kept ≠ none) : p.landingAtTeardown l = l := by
  obtain ⟨k, kept⟩ := Option.ne_none_iff_exists'.1 kept
  simp only [Part.landingAtTeardown, kept]

theorem Part.teardownCompletion_noWrites (flies : g.landing = some l) (fresh : l.kept = none) (none' : l.writes = []) :
    p.teardownCompletion g = some
      ⟨l.stream, (p.stream l.stream).reassembly.firstSlot, (p.stream l.stream).reassembly.lastSlot,
        (p.stream l.stream).reassembly.bytesSoFar, (p.stream l.stream).reassembly.mark,
        if l.cause = .hostWriteFault then .hostWriteFault else .linkLost⟩ := by
  have status : (if l.cause = .hostWriteFault then LandingCause.hostWriteFault else .linkLost).status =
      if l.cause = .hostWriteFault then .hostWriteFault else .linkLost := by
    split <;> rfl
  simp [Part.teardownCompletion, flies, Part.landingAtTeardown_fresh fresh, Landing.keptCompletion, Landing.ended,
    none', status]

end

/-! ## Each unit after a teardown -/

section
variable (p : Part)

theorem Part.teardownUnits_streams : p.teardownUnits.streams = p.streams.map StreamEntry.teardown := by
  simp [Part.teardownUnits, Part.teardownStreams]

theorem Part.teardownUnits_control : p.teardownUnits.control = [] := by
  simp [Part.teardownUnits, Part.teardownStreams]

theorem Part.teardownUnits_ib : p.teardownUnits.ib = p.teardownStreams.ib := by
  simp [Part.teardownUnits, Part.teardownStreams]

theorem Part.teardownUnits_tx : p.teardownUnits.tx = { staging := p.tx.staging.drop } := by
  simp [Part.teardownUnits, Part.teardownTransmitter]

theorem Part.teardownUnits_sq : p.teardownUnits.sq = p.teardownSequencing.sq := by
  simp [Part.teardownUnits, Part.teardownSequencing]

theorem Part.teardownUnits_dl : p.teardownUnits.dl = p.teardownDelivery.dl := by
  simp [Part.teardownUnits]

theorem Part.teardownContexts_sf : p.teardownContexts.sf = p.sf.completedAll p.sf.losing .linkLost :=
  (List.foldl_hom Part.sf fun _ _ => rfl).symm

theorem Part.teardownUnits_sf : p.teardownUnits.sf = p.sf.completedAll p.sf.losing .linkLost := by
  simp [Part.teardownUnits, Part.teardownContexts_sf]

theorem StreamEntry.teardown_disrupted {e : StreamEntry}
    (kept : e.state = .localOpen ∨ e.state = .opened ∨ e.state = .disrupted) : e.teardown = e.disrupted := by
  rcases kept with state | state | state <;> simp only [StreamEntry.teardown, state]

theorem StreamEntry.teardown_cleared {e : StreamEntry}
    (goes : e.state = .closing ∨ e.state = .winding ∨ e.state = .offered ∨ e.state = .closed) :
    e.teardown = e.cleared := by
  rcases goes with state | state | state | state <;> simp only [StreamEntry.teardown, state]

/-- A waiting STREAM_CLOSE whose stream is still ending completes LINK_LOST (R172, R178). -/
theorem Part.teardownUnits_streamClose {p : Part} {i : Fin 64} {tag : BitVec 32}
    (waits : p.cm.command = some ⟨.streamClose i.val, tag, .acting⟩)
    (ending : (p.stream i).state = .closing ∨ (p.stream i).state = .winding) :
    p.teardownUnits.cm.command = some ⟨.streamClose i.val, tag, .offered .linkLost⟩ := by
  have named : index? 64 i.val = some i := by simp [index?]
  have ending' : (decide ((p.stream i).state = .closing) || decide ((p.stream i).state = .winding)) = true := by
    simpa using ending
  rw [Part.teardownUnits_cm]
  simp only [Part.teardownCommand, waits, named, if_pos ending', Part.completeCommand]
  rfl

/-- What follows a teardown completes a waiting LINK_STOP alone. -/
theorem Part.afterTeardown_cm {p : Part} {t : Teardown}
    (other : ∀ tag, p.cm.command ≠ some ⟨.linkStop, tag, .acting⟩) : (p.afterTeardown t).cm = p.cm := by
  have offline : p.enterOffline.cm = p.cm := by
    unfold Part.enterOffline
    dsimp only
    split
    · exact absurd ‹_› (other _)
    · rfl
  unfold Part.afterTeardown
  split
  · exact offline
  · split
    · rfl
    · split
      · rfl
      · split <;> rfl

theorem Part.afterTeardown_timers (t : Teardown) : (p.afterTeardown t).cm.timers = p.cm.timers := by
  have offline : p.enterOffline.cm.timers = p.cm.timers := by
    unfold Part.enterOffline
    dsimp only
    split <;> rfl
  unfold Part.afterTeardown
  split
  · exact offline
  · split
    · rfl
    · split
      · rfl
      · split <;> rfl

end

/-- Settles O17. -/
theorem teardownOfTheUnits : Obligations.TeardownOfTheUnits := by
  intro s t pending free
  obtain ⟨hi, sq, streams, control, ib, tx, sf, dl, cq, rings, -⟩ := (s.tornDown t).afterTeardown_frame t
  have streams : ∀ i, Part.stream ((s.tornDown t).afterTeardown t) i = (s.stream i).teardown := fun i => by
    rw [Part.stream, streams]; exact (congrArg (Table.get · i) s.teardownUnits_streams).trans (Table.get_map ..)
  have landRing : ∀ r, Part.landRing ((s.tornDown t).afterTeardown t) r = s.ringAtTeardown (s.landRing r) := fun r => by
    rw [Part.landRing, dl]
    exact (congrArg (fun d : Delivery => d.rings.get r) s.teardownUnits_dl).trans (s.teardownDelivery_ring r)
  have ib := ib.trans s.teardownUnits_ib
  have sq := sq.trans s.teardownUnits_sq
  have tx := tx.trans s.teardownUnits_tx
  have sf := sf.trans s.teardownUnits_sf
  obtain ⟨more, line, ended⟩ := s.teardownDelivery_line
  have line := (congrArg Delivery.line (dl.trans s.teardownUnits_dl)).trans line
  have context : ∀ c, Part.context ((s.tornDown t).afterTeardown t) c =
      (s.sf.completedAll s.sf.losing .linkLost).contexts.get c := fun c => by rw [Part.context, sf]
  obtain ⟨hi', -, cq', rings'⟩ := s.teardownUnits_frame
  refine ⟨_, exec_of_effect (congrArg Part.settle (Part.applyTeardown_pending pending free)), fun i => ⟨?_, ?_, ?_⟩,
    control.trans s.teardownUnits_control, ?_, ?_, ?_, ?_, ?_, ?_, ?_, ?_, ?_, ?_, ?_, ?_, ?_, ?_, ?_, ?_, ?_, ?_, ?_,
    ?_, ?_, fun r => ?_, ?_, ?_, ?_, ⟨more, line⟩, ?_, rings.trans rings', cq.trans cq', hi.trans hi',
    ((s.tornDown t).afterTeardown_timers t).trans s.teardownUnits_timers⟩
  · exact fun kept => (streams i).trans (StreamEntry.teardown_disrupted kept)
  · exact fun goes => (streams i).trans (StreamEntry.teardown_cleared goes)
  · rw [Part.queue, ib]; exact Table.get_fill ..
  · rw [ib]; rfl
  · rw [ib]; rfl
  · rw [tx]
  · rw [tx]
  · rw [tx]
  · intro d w reads slot; rw [tx, slot]; rfl
  · intro d payload slot; rw [tx, slot]; rfl
  · rw [sq]; rfl
  · rw [sq]; rfl
  · rw [sq]; rfl
  · rw [sq]; rfl
  · rw [sq]; rfl
  · rw [sq]; rfl
  · rw [sq]; rfl
  · rw [sq]; rfl
  · rw [sq]; rfl
  · rw [sq]; rfl
  · intro n w reads slot; rw [sq, Part.teardownSequencing, slot]; rfl
  · intro n payload slot; rw [sq, Part.teardownSequencing, slot]; rfl
  · intro r c member undecided
    have losing : c ∈ s.sf.losing := SendFetcher.mem_losing.2 ⟨⟨r, member⟩, undecided⟩
    obtain ⟨state, outcome⟩ := SendFetcher.completedAll_mem (sf := s.sf) (outcome := .linkLost) losing
    rw [context, sf, SendFetcher.completedAll_line]
    exact ⟨state, outcome, List.mem_append_right _ losing⟩
  · intro c decided
    rw [context]
    refine SendFetcher.completedAll_other fun losing => ?_
    have undecided : (s.context c).undecided = true := (SendFetcher.mem_losing.1 losing).2
    exact Bool.false_ne_true (decided.symm.trans undecided)
  · rw [landRing]; exact s.ringAtTeardown_claims _
  · intro r i holds assembling noLanding noWaiting m
    have decided := Part.teardownCompletion_assembling (p := s.toPart) holds assembling noLanding noWaiting
    obtain ⟨-, current, waiting⟩ := Part.ringAtTeardown_some decided
    rw [landRing, line]
    exact ⟨waiting, current, List.mem_append_right _ (ended r _ decided)⟩
  · intro r l flies x cause stays
    refine ⟨fun fresh writes => ?_, fun fresh none' => ?_, fun kept writes => ?_⟩
    · obtain ⟨landing, current, waiting⟩ :=
        Part.ringAtTeardown_none (Part.teardownCompletion_writes (p := s.toPart) flies writes)
      refine ⟨?_, ?_, ?_⟩
      · rw [landRing, landing, flies, Option.map_some, Part.landingAtTeardown_fresh fresh]
      · rw [landRing, current]
      · rw [landRing, waiting]
    · have decided := Part.teardownCompletion_noWrites (p := s.toPart) flies fresh none'
      obtain ⟨landing, current, waiting⟩ := Part.ringAtTeardown_some decided
      rw [landRing, line]
      exact ⟨landing, current, waiting, List.mem_append_right _ (ended r _ decided)⟩
    · obtain ⟨landing, current, waiting⟩ :=
        Part.ringAtTeardown_none (Part.teardownCompletion_writes (p := s.toPart) flies writes)
      refine ⟨?_, ?_, ?_⟩
      · rw [landRing, landing, flies, Option.map_some, Part.landingAtTeardown_kept kept]
      · rw [landRing, current]
      · rw [landRing, waiting]
  · intro r noLanding waits
    obtain ⟨-, current, waiting⟩ :=
      Part.ringAtTeardown_none (Part.teardownCompletion_waiting (p := s.toPart) noLanding waits)
    rw [landRing]
    exact ⟨waiting, current⟩
  · intro i tag waits ending
    have closes := Part.teardownUnits_streamClose waits ending
    have other : ∀ tag, (s.tornDown t).cm.command ≠ some ⟨.linkStop, tag, .acting⟩ := fun tag stops => by
      have stops : s.teardownUnits.cm.command = _ := stops
      rw [closes] at stops
      cases stops
    rw [Part.afterTeardown_cm other]
    exact closes

end Sys2Proof.Machine

/-! PROOF. Custody, and what SF and DL do with the records they copy (R89 to R98, R125, R126). -/

namespace Sys2Proof.Machine

/-! ## A ring reads on, or is held (R90, R92) -/

section
variable {p : Part} {ring : RingId} {k : AccessKind}

@[simp] theorem Part.hasRoom_endAccess (p : Part) (ring : RingId) (k : AccessKind) :
    (p.endAccess k).hasRoom ring = p.hasRoom ring := by
  cases ring <;> rfl

/-- After the end of an access the ring reads on where its unit has room. -/
theorem Part.readOrHold_room (room : p.hasRoom ring = true) : (p.endAccess k).readOrHold ring =
    { p.modConsumer ring fun c => { c with state := .reading } with hi := (p.endAccess k).readingHost ring } := by
  rw [Part.readOrHold, Part.hasRoom_endAccess, if_pos room, Part.beginRead_eq, Part.endAccess_modConsumer]

theorem Part.readOrHold_full (full : p.hasRoom ring = false) : (p.endAccess k).readOrHold ring =
    { p.modConsumer ring fun c => { c with state := .held } with hi := (p.endAccess k).hi } := by
  rw [Part.readOrHold, Part.hasRoom_endAccess, full, if_neg Bool.false_ne_true, Part.endAccess_modConsumer]

theorem Part.heldRead_eq (running : p.hi.deviceState = .running) : p.heldRead ring =
    if (p.consumer ring).state = .held ∧ p.hasRoom ring = true then p.beginRead ring else p := by
  simp [Part.heldRead, Part.running, running]

/-- A successful custody write of a RUNNING part. -/
theorem Part.custodyWriteEnds_ok {a : Access} (running : p.hi.deviceState = .running)
    (inFlight : p.access? (.custodyWrite ring) = some a) :
    p.custodyWriteEnds ring true = (p.endAccess (.custodyWrite ring)).readOrHold ring :=
  (Part.onAccessEnd_delivered inFlight running).trans (if_pos rfl)

end

/-- Settles O33. -/
theorem custodyAndHeldRings : Obligations.CustodyAndHeldRings := by
  refine ⟨fun s ring running => ⟨fun a inFlight => ⟨fun room => ?_, fun full => ?_⟩, fun held room => ?_, fun shut => ?_⟩,
    fun p => ⟨Option.isNone_iff_eq_none, fun r => ?_, fun r => decide_eq_true_iff⟩⟩
  · refine exec_of_effect ((Part.custodyWriteEnds_ok running inFlight).trans ((Part.readOrHold_room room).trans ?_))
    rw [Part.readingHost, Part.recordRead, Part.consumer_endAccess]
    rfl
  · exact exec_of_effect ((Part.custodyWriteEnds_ok running inFlight).trans (Part.readOrHold_full full))
  · refine exec_of_effect ((Part.heldRead_eq running).trans ((if_pos ⟨held, room⟩).trans ?_))
    exact Part.beginRead_eq ..
  · refine exec_of_effect ((Part.heldRead_eq running).trans (if_neg ?_))
    rintro ⟨held, room⟩
    rcases shut with notHeld | full
    · exact notHeld held
    · exact Bool.false_ne_true (full.symm.trans room)
  · rw [Part.hasRoom, Bool.or_eq_true, Part.filling_isSome, Part.freeContext_isSome, ← exists_or]
    simp only [← and_or_left]

/-! ## A copy has the effect of its record's row (R89) -/

/-- A record handed over acts as the row of the copy that its bytes make. -/
theorem exec_ringReadEnd_copy {s : State} {ring : RingId} {record : List Byte} {a : Access}
    (inFlight : s.access? (.ringRead ring) = some a) (handed : fieldAt record 0x1F 1 = 0xA5)
    (length : record.length = a.length) :
    exec (.ringReadEnd ring (.data record)) s = s.become (s.recordArrives (readCopy record ring)) := by
  have answers : readAnswers (.data record) a.length = true := decide_eq_true length
  refine exec_of_effect (show Part.ringReadEnds _ _ _ = _ from ?_)
  simp only [Part.ringReadEnds, Part.onReadEnd, inFlight, if_pos answers, Part.onAccessEnd,
    if_pos ((recordIsPart_iff _).2 handed), Part.recordArrives, readCopy_ring]

/-! ## Send records (R94 to R97) -/

/-- A send record's row with its read in flight. -/
theorem Part.sendRecordArrives {s : State} {r : Fin 4} (reading : s.ReadInFlight (.send r)) (record : SendRecord) :
    s.toPart.recordArrives (.send r record) =
      ((s.afterCopy (.send r)).takeSendRecord r (s.consumer (.send r)).position record).settle :=
  Part.recordArrives_eq (copy := .send r record) reading

section
variable {p : Part} {r : Fin 4} {c : Fin 32} {position : Nat}

/-- A context taken for a new record. -/
theorem Part.taken_eq (ring : c.val / 8 = r.val) (x : Context) :
    (p.modContext c fun _ => x).joinFetchOrder c = { p with sf := p.contextTaken r c x } := by
  have here : contextRing c = r := Fin.ext ring
  rw [Part.joinFetchOrder, here]
  rfl

variable (empty : p.filling? r = none) (free : p.freeContext? r = some c) (ring : c.val / 8 = r.val)
include empty free ring

theorem Part.takeSendRecord_head (h : HeadRecord) : p.takeSendRecord r position (.head h) =
    (let begun : Part := { p with sf := p.contextTaken r c (headContext position h) }
    if h.fragmentCount = 1 ∨ h.fragmentCount = 0 ∨ 16 < h.fragmentCount then begun.validate c else begun) := by
  simp only [Part.takeSendRecord, empty, free, Part.taken_eq ring, Bool.or_eq_true, decide_eq_true_eq, or_assoc]

theorem Part.takeSendRecord_stray {record : SendRecord} (stray : record.notHead = true) :
    p.takeSendRecord r position record =
      { p with sf := (p.contextTaken r c { headIndex := position }).completed c .badRecord } := by
  cases record with
  | head h => cases stray
  | fragment | other => simp only [Part.takeSendRecord, empty, free, Part.taken_eq ring, Part.completeContext_eq]

end

section
variable {p : Part} {r : Fin 4} {c : Fin 32} {position : Nat} (filling : p.filling? r = some c)
include filling

theorem Part.takeSendRecord_fragment (address : Addr) (length : Nat) :
    p.takeSendRecord r position (.fragment address length) =
      (let joined := p.modContext c fun x => { x with fragments := x.fragments ++ [⟨address, length⟩] }
      if (p.context c).fragments.length + 1 = (p.context c).fragmentCount then joined.validate c else joined) := by
  simp only [Part.takeSendRecord, filling, Part.context_modContext_self, List.length_append, List.length_cons,
    List.length_nil, Nat.zero_add]

theorem Part.takeSendRecord_head_expectedFragment (h : HeadRecord) : p.takeSendRecord r position (.head h) =
    { p with sf := p.sf.completed c .badRecord } := by
  simp only [Part.takeSendRecord, filling, Part.completeContext_eq]

theorem Part.takeSendRecord_other_expectedFragment (kind : Nat) :
    p.takeSendRecord r position (.other kind) = { p with sf := p.sf.completed c .badRecord } := by
  simp only [Part.takeSendRecord, filling, Part.completeContext_eq]

end

/-- Settles O34. -/
theorem sendRecordsTaken : Obligations.SendRecordsTaken := by
  refine ⟨fun s record a handed length => ⟨fun r inFlight => ?_, fun r inFlight => ?_, ?_⟩,
    fun s r c reading empty lowest => ⟨fun h => ⟨fun most fits => ?_, fun last => ?_⟩, fun record stray => ?_⟩,
    fun s r c reading filling => ⟨fun address length => ⟨fun more => ?_, fun last => ?_⟩, fun kind => ?_, fun h => ?_⟩⟩
  · have copied := exec_ringReadEnd_copy inFlight handed length
    refine ⟨fun h head => copied.trans ?_, copied, copied⟩
    rw [readCopy, head]
    rfl
  · exact exec_ringReadEnd_copy inFlight handed length
  · rintro inFlight tag rfl
    rw [exec_ringReadEnd_copy inFlight handed length, readCopy]
    cases readCommand record <;> rfl
  · refine exec_of_effect ((Part.sendRecordArrives reading _).trans ?_)
    rw [Part.takeSendRecord_head (p := s.afterCopy (.send r)) empty (Part.freeContext_eq lowest) lowest.1,
      if_neg (by omega)]
    rfl
  · refine exec_of_effect ((Part.sendRecordArrives reading _).trans ?_)
    rw [Part.takeSendRecord_head (p := s.afterCopy (.send r)) empty (Part.freeContext_eq lowest) lowest.1,
      if_pos last]
    rfl
  · refine exec_of_effect ((Part.sendRecordArrives reading _).trans ?_)
    rw [Part.takeSendRecord_stray (p := s.afterCopy (.send r)) empty (Part.freeContext_eq lowest) lowest.1 stray]
    rfl
  · refine exec_of_effect ((Part.sendRecordArrives reading _).trans ?_)
    exact congrArg Part.settle
      ((Part.takeSendRecord_fragment (p := s.afterCopy (.send r)) filling _ _).trans (if_neg more))
  · refine exec_of_effect ((Part.sendRecordArrives reading _).trans ?_)
    exact congrArg Part.settle
      ((Part.takeSendRecord_fragment (p := s.afterCopy (.send r)) filling _ _).trans (if_pos last))
  · refine exec_of_effect ((Part.sendRecordArrives reading _).trans ?_)
    rw [Part.takeSendRecord_other_expectedFragment (p := s.afterCopy (.send r)) filling]
    rfl
  · refine exec_of_effect ((Part.sendRecordArrives reading _).trans ?_)
    rw [Part.takeSendRecord_head_expectedFragment (p := s.afterCopy (.send r)) filling]
    rfl

/-! ## The validation of a context (R98) -/

/-- The fragment count and every fragment length are in range (R98). -/
def Context.CountOk (x : Context) : Prop :=
  1 ≤ x.fragmentCount ∧ x.fragmentCount ≤ 16 ∧ ∀ f ∈ x.fragments, 1 ≤ f.length

theorem Context.not_countOk_iff (x : Context) : (x.fragmentCount < 1 || 16 < x.fragmentCount
      || x.fragments.any fun f => f.length = 0) = true ↔ ¬x.CountOk := by
  have zero : (x.fragments.any fun f => f.length = 0) = true ↔ ¬∀ f ∈ x.fragments, 1 ≤ f.length := by
    simp [Nat.one_le_iff_ne_zero]
  rw [Bool.or_eq_true, Bool.or_eq_true, decide_eq_true_eq, decide_eq_true_eq, zero, Context.CountOk,
    Classical.not_and_iff_not_or_not, Classical.not_and_iff_not_or_not, Nat.not_le, Nat.not_le, or_assoc]

section
variable {p : Part} {c : Fin 32}

theorem Part.validate_of_some {outcome : Status} (fails : p.validation c = some outcome) :
    p.validate c = { p with sf := p.sf.completed c outcome } := by
  simp only [Part.validate, fails, Part.completeContext_eq]

theorem Part.validation_count (bad : ¬(p.context c).CountOk) : p.validation c = some .badRecord :=
  if_pos ((Context.not_countOk_iff _).2 bad)

variable (count : (p.context c).CountOk)
include count

theorem Part.validation_sum
    (bad : ((p.context c).fragments.map Fragment.length).sum ≠ (p.context c).totalLength) :
    p.validation c = some .lengthMismatch :=
  (if_neg fun bad => (Context.not_countOk_iff _).1 bad count).trans (if_pos bad)

variable (sum : ((p.context c).fragments.map Fragment.length).sum = (p.context c).totalLength)
include sum

theorem Part.validation_noStream (outside : 64 ≤ (p.context c).stream) :
    p.validation c = some .streamNotOpen := by
  have none' : index? 64 (p.context c).stream = none := dif_neg (Nat.not_lt.2 outside)
  refine (if_neg fun bad => (Context.not_countOk_iff _).1 bad count).trans ((if_neg (Classical.not_not.2 sum)).trans ?_)
  rw [none']

/-- The checks that read the stream's entry, in their order. -/
theorem Part.validation_stream {i : Fin 64} (names : (p.context c).stream = i.val) : p.validation c =
    if (p.stream i).state ≠ .opened then some .streamNotOpen
    else if (p.stream i).sendRing ≠ contextRing c then some .wrongRing
    else if (p.stream i).peerMaxMessage < (p.context c).totalLength then some .tooLong
    else none := by
  have some' : index? 64 (p.context c).stream = some i := by simp [names, index?]
  refine (if_neg fun bad => (Context.not_countOk_iff _).1 bad count).trans ((if_neg (Classical.not_not.2 sum)).trans ?_)
  rw [some']

end

theorem Part.validate_of_none {p : Part} {c : Fin 32} {i : Fin 64} (passes : p.validation c = none)
    (names : (p.context c).stream = i.val) : p.validate c =
      { p with
        sf := { p.sf with
          contexts := p.sf.contexts.set c
            { p.context c with
              state := .ready, parcelCount := parcelCount (p.context c).totalLength p.lk.payloadSize } }
        streams := p.streams.set i { p.stream i with sendLine := (p.stream i).sendLine ++ [c] } } := by
  have some' : index? 64 (p.context c).stream = some i := by simp [names, index?]
  simp only [Part.validate, passes, Part.context_modContext_self, some']
  rfl

/-- Settles O35. -/
theorem contextValidation : Obligations.ContextValidation := by
  intro p c x fails countOk sumOk
  have ringIs {r : Fin 4} : r.val = c.val / 8 ↔ r = contextRing c := (Fin.ext_iff (b := contextRing c)).symm
  refine ⟨fun bad => ?_, fun count bad => ?_, fun count sum outside => ?_, fun i count sum names => ?_⟩
  · exact Part.validate_of_some (Part.validation_count bad)
  · exact Part.validate_of_some (Part.validation_sum count bad)
  · exact Part.validate_of_some (Part.validation_noStream count sum outside)
  · have checks := Part.validation_stream count sum names
    refine ⟨fun shut => ?_, fun opened other => ?_, fun opened here long => ?_, fun opened here fits size => ?_⟩
    · exact Part.validate_of_some (checks.trans (if_pos shut))
    · exact Part.validate_of_some (checks.trans ((if_neg (Classical.not_not.2 opened)).trans (if_pos (mt ringIs.2 other))))
    · exact Part.validate_of_some (checks.trans ((if_neg (Classical.not_not.2 opened)).trans
        ((if_neg (Classical.not_not.2 (ringIs.1 here))).trans (if_pos long))))
    · obtain ⟨above, below⟩ := parcelCount_bounds x.totalLength p.lk.payloadSize size
      exact ⟨_, above, below, Part.validate_of_none (checks.trans ((if_neg (Classical.not_not.2 opened)).trans
        ((if_neg (Classical.not_not.2 (ringIs.1 here))).trans (if_neg (Nat.not_lt.2 fits))))) names⟩

/-! ## Landing records (R125, R126) -/

theorem landingLengthValid_iff (length : Nat) : landingLengthValid length = true ↔
    256 ≤ length ∧ length ≤ 65536 ∧ length % 64 = 0 := by
  simp [landingLengthValid, and_assoc]

theorem Part.landingRecordArrives {s : State} {r : Fin 8} (reading : s.ReadInFlight (.landing r)) (address : Addr)
    (length : Nat) : s.toPart.recordArrives (.landing r address length) =
      ((s.afterCopy (.landing r)).takeLandingRecord r (s.consumer (.landing r)).position address length).settle :=
  Part.recordArrives_eq (copy := .landing r address length) reading

section
variable {p : Part} {r : Fin 8} {slot length : Nat} {address : Addr}

/-- The part with a buffer cached, and the episode closed. -/
def Part.buffered (p : Part) (r : Fin 8) (slot : Nat) (address : Addr) (length : Nat) : Part :=
  p.modLandRing r fun g => { g with cache := g.cache ++ [.usable slot address length], episode := false }

theorem Part.takeLandingRecord_accepted (accepted : landingLengthValid length = true) :
    p.takeLandingRecord r slot address length =
      (if (p.landRing r).landing.any fun l => !l.unplaced.isEmpty then (p.buffered r slot address length).place r
      else p.buffered r slot address length).refreshRing r := by
  simp only [Part.takeLandingRecord, if_pos accepted, Part.landRing_modLandRing_self]
  rfl

theorem Part.takeLandingRecord_rejected (rejected : landingLengthValid length = false) :
    p.takeLandingRecord r slot address length =
      { p with dl := { p.dl with
          rings := p.dl.rings.set r { p.landRing r with cache := (p.landRing r).cache ++ [.rejected slot] }
          line := p.dl.line ++ [.rejected r slot length] } } := by
  simp only [Part.takeLandingRecord, rejected, Bool.false_eq_true, if_false]
  rfl

end

/-- Settles O36. -/
theorem landingRecordEffect : Obligations.LandingRecordEffect := by
  intro s r address length reading position ring accepted cached
  have arrives := Part.landingRecordArrives reading address length
  refine ⟨fun accepted placed => ?_, fun accepted l flies unplaced => ?_, fun rejected => ?_⟩
  · refine exec_of_effect (arrives.trans ?_)
    have nothing : ((s.afterCopy (.landing r)).landRing r).landing.any (fun l => !l.unplaced.isEmpty) = false := by
      change (s.landRing r).landing.any _ = false
      cases flies : (s.landRing r).landing with
      | none => rfl
      | some l => simp [placed l flies]
    rw [Part.takeLandingRecord_accepted ((landingLengthValid_iff _).2 accepted), nothing, if_neg Bool.false_ne_true]
    rfl
  · refine exec_of_effect (arrives.trans ?_)
    have something : ((s.afterCopy (.landing r)).landRing r).landing.any (fun l => !l.unplaced.isEmpty) = true := by
      change (s.landRing r).landing.any _ = true
      rw [show (s.landRing r).landing = some l from flies]
      simpa using unplaced
    rw [Part.takeLandingRecord_accepted ((landingLengthValid_iff _).2 accepted), if_pos something]
    rfl
  · refine exec_of_effect (arrives.trans ?_)
    rw [Part.takeLandingRecord_rejected (by rw [← Bool.not_eq_true, landingLengthValid_iff]; exact rejected)]
    rfl

end Sys2Proof.Machine

/-! PROOF. The completion unit: how completions are taken, the posting order, and interrupt moderation (R43, R105, R130,
R139, R142, R144, R147, R153 to R161, R166). -/

namespace Sys2Proof.Machine

/-! ## A completion is taken (R105, R144, R155, R166) -/

section
variable {p : Part} {w : Producer} {record : Record}

theorem Part.take_straight (offers : p.offer? w = some record)
    (straight : p.MayWrite ∧ p.cq.list = [] ∧ p.anyFlag = false) :
    p.take w = (p.writeBegun record).released w := by
  simp only [Part.take, offers, if_pos ((p.straight_iff).2 straight), Part.beginWrite_eq]

theorem Part.take_listed (offers : p.offer? w = some record)
    (waits : ¬(p.MayWrite ∧ p.cq.list = [] ∧ p.anyFlag = false)) :
    p.take w = Part.released { p with cq := { p.cq with list := p.cq.list ++ [record] } } w := by
  simp only [Part.take, offers, if_neg (mt (p.straight_iff).1 waits)]

/-- Both ways of taking a completion, by what they leave before the producer is released. -/
theorem Part.take_both {released : Part → Part} (offers : p.offer? w = some record)
    (release : ∀ q : Part, q.sf = p.sf → q.dl = p.dl → q.cm = p.cm → q.released w = released q) :
    let straight := p.MayWrite ∧ p.cq.list = [] ∧ p.anyFlag = false
    (straight → p.take w = released (p.writeBegun record))
      ∧ (¬straight → p.take w = released { p with cq := { p.cq with list := p.cq.list ++ [record] } }) :=
  ⟨fun straight => (Part.take_straight offers straight).trans (release _ rfl rfl rfl),
    fun waits => (Part.take_listed offers waits).trans (release _ rfl rfl rfl)⟩

end

theorem Part.released_sf {p : Part} {c : Fin 32} {rest : List (Fin 32)} (line : p.sf.line = c :: rest) :
    p.released .sf =
      { p with sf := { p.sf with
          contexts := p.sf.contexts.set c {}
          fetchOrder := p.sf.fetchOrder.modify (contextRing c) fun l => l.filter fun x => decide (x ≠ c)
          line := rest } } := by
  simp only [Part.released, line]

theorem Part.released_rejected {p : Part} {r : Fin 8} {slot length : Nat} {rest : List DeliveryCompletion}
    (line : p.dl.line = .rejected r slot length :: rest) : p.released .dl =
      Part.modLandRing { p with dl := { p.dl with line := rest } } r fun g =>
        { g with cache := g.cache.erase (.rejected slot) } := by
  simp only [Part.released, line]

theorem Part.released_message {p : Part} {r : Fin 8} {m : MessageCompletion} {rest : List DeliveryCompletion}
    (line : p.dl.line = .message r m :: rest) :
    p.released .dl = Part.messageTaken { p with dl := { p.dl with line := rest } } r m := by
  simp only [Part.released, line]

/-! ### The release of a message (R130, R139, R142, R144) -/

theorem StreamEntry.closedByHost_iff (e : StreamEntry) : e.closedByHost = true ↔
    e.state = .closing ∨ (e.state = .winding ∧ e.closeWaiting = true) := by
  simp [StreamEntry.closedByHost]

section
variable {p : Part} {r : Fin 8} {m : MessageCompletion}

/-- The stream's entry once its message has been taken: IDLE where the host has closed it, and the marker of a wound
stream processed. -/
def StreamEntry.messageTaken (e : StreamEntry) (m : MessageCompletion) : StreamEntry :=
  { e with
    reassembly := { e.reassembly with
      mode :=
        if e.state = .closing ∨ (e.state = .winding ∧ e.closeWaiting = true) then .idle else e.reassembly.mode }
    markerProcessed := if m.status = .peerClosed ∧ e.state = .winding then true else e.markerProcessed }

theorem Part.modStream_modStream (p : Part) (i : Fin 64) (f g : StreamEntry → StreamEntry) :
    (p.modStream i f).modStream i g = p.modStream i fun e => g (f e) := by
  simp only [Part.modStream, Table.modify, Table.get_set_self, Table.set_set]

theorem Part.modStream_if (p : Part) (i : Fin 64) (f : StreamEntry → StreamEntry) (b : Bool) :
    (if b = true then p.modStream i f else p) = p.modStream i fun e => if b = true then f e else e := by
  cases b
  · simp only [Bool.false_eq_true, if_false, Part.modStream, Table.modify, Table.set_get]
  · rfl

theorem Part.modLandRing_modLandRing (p : Part) (r : Fin 8) (f g : LandingRing → LandingRing) :
    (p.modLandRing r f).modLandRing r g = p.modLandRing r fun x => g (f x) := by
  simp only [Part.modLandRing, Table.modify, Table.get_set_self, Table.set_set]

/-- The holder's release in two steps, as one change of its entry. -/
theorem StreamEntry.messageTaken_eq (e : StreamEntry) (m : MessageCompletion) :
    (let e' := if e.closedByHost = true then { e with reassembly := { e.reassembly with mode := .idle } } else e
    if (m.status = .peerClosed && e'.state = .winding) = true then { e' with markerProcessed := true } else e') =
      e.messageTaken m := by
  have closed := e.closedByHost_iff
  unfold StreamEntry.messageTaken
  by_cases host : e.closedByHost = true <;> by_cases marker : m.status = .peerClosed ∧ e.state = .winding
  · simp only [host, if_true, if_pos (closed.1 host), Bool.and_eq_true, decide_eq_true_eq, if_pos marker]
  · simp only [host, if_true, if_pos (closed.1 host), Bool.and_eq_true, decide_eq_true_eq, if_neg marker]
  · simp only [host, Bool.false_eq_true, if_false, if_neg (mt closed.2 host), Bool.and_eq_true, decide_eq_true_eq,
      if_pos marker]
  · simp only [host, Bool.false_eq_true, if_false, if_neg (mt closed.2 host), Bool.and_eq_true, decide_eq_true_eq,
      if_neg marker]

theorem Part.messageTaken_held (holds : (p.landRing r).holder = some m.stream) : p.messageTaken r m =
    (((Part.passClaim
      { p with
        dl := { p.dl with rings := p.dl.rings.set r { p.landRing r with waiting := none, holder := none } }
        streams := p.streams.set m.stream ((p.stream m.stream).messageTaken m) } r).exitTest
      m.stream).askClaim m.stream).refreshRing r := by
  have entry : ∀ q : Part, q.streams = p.streams →
      (let q' := if (q.stream m.stream).closedByHost then q.setMode m.stream .idle else q
      if m.status = .peerClosed && (q'.stream m.stream).state = .winding then
        q'.modStream m.stream fun e => { e with markerProcessed := true }
      else q') = { q with streams := p.streams.set m.stream ((p.stream m.stream).messageTaken m) } := by
    intro q same
    have here : q.stream m.stream = p.stream m.stream := by rw [Part.stream, same]; rfl
    rw [← (p.stream m.stream).messageTaken_eq m, ← here, ← same]
    dsimp only [Part.setMode]
    rw [Part.modStream_if q, Part.modStream_if, Part.stream_modStream_self, Part.modStream_modStream]
    rfl
  have first := entry (p.modLandRing r fun g => { g with waiting := none }) rfl
  dsimp only at first
  simp only [Part.messageTaken, holds, decide_true, if_true, first, Part.giveUpClaim]
  rw [show Part.modLandRing { p.modLandRing r fun g => { g with waiting := none } with
      streams := p.streams.set m.stream ((p.stream m.stream).messageTaken m) } r (fun g => { g with holder := none }) =
    { (p.modLandRing r fun g => { g with waiting := none }).modLandRing r fun g => { g with holder := none } with
      streams := p.streams.set m.stream ((p.stream m.stream).messageTaken m) } from rfl, Part.modLandRing_modLandRing]
  rfl

theorem Part.messageTaken_other (other : (p.landRing r).holder ≠ some m.stream) : p.messageTaken r m =
    (Part.passClaim
      { p with dl := { p.dl with rings := p.dl.rings.set r { p.landRing r with waiting := none } } } r).refreshRing r := by
  simp only [Part.messageTaken, other, decide_false, Bool.false_eq_true, if_false]
  rfl

end

/-- Settles O37. -/
theorem completionsTaken : Obligations.CompletionsTaken := by
  refine ⟨fun p => ⟨fun command tag status done => ?_, fun c rest outcome line decided => ?_,
    fun r slot length rest line => ?_, fun r m rest line => ?_⟩,
    fun p r m => ⟨fun holds => Part.messageTaken_held holds, fun other => Part.messageTaken_other other⟩⟩
  · exact Part.take_both (released := fun q => { q with cm := { p.cm with command := none } })
      (by simp only [Part.offer?, done]) fun q _ _ cm => by rw [Part.released, cm]
  · refine Part.take_both (w := .sf) (released := fun q => { q with sf :=
      { contexts := p.sf.contexts.set c {}
        fetchOrder := p.sf.fetchOrder.set (contextRing c)
          ((p.sf.fetchOrder.get (contextRing c)).filter fun y => decide (y ≠ c))
        line := rest } }) ?_ fun q sf _ _ => ?_
    · simp only [Part.offer?, line, decided]
      rfl
    · rw [Part.released_sf (by rw [sf, line]), sf]
      rfl
  · refine Part.take_both (w := .dl) (released := fun q => { q with dl :=
      { p.dl with
        line := rest
        rings := p.dl.rings.set r { p.landRing r with cache := (p.landRing r).cache.erase (.rejected slot) } } })
      ?_ fun q _ dl _ => ?_
    · simp only [Part.offer?, line]
    · rw [Part.released_rejected (by rw [dl, line]), dl]
      rfl
  · refine Part.take_both (w := .dl)
      (released := fun q => Part.messageTaken { q with dl := { p.dl with line := rest } } r m) ?_ fun q _ dl _ => ?_
    · simp only [Part.offer?, line]
    · rw [Part.released_message (by rw [dl, line]), dl]

/-! ## The offers are taken one after another (R155 to R157) -/

/-- How many more offers CQ can take: one straight into the ring, and those that the list has room for. -/
def Part.rank (p : Part) : Nat := (if p.straight = true then 1 else 0) + (32 - p.cq.list.length)

/-- CQ can take an offer. -/
def Part.CanTake (p : Part) : Prop :=
  (p.MayWrite ∧ p.cq.list = [] ∧ p.anyFlag = false) ∨ p.cq.list.length < 32

theorem Part.canTake_iff (p : Part) : (p.straight || p.listRoom) = true ↔ p.CanTake := by
  rw [Bool.or_eq_true, Part.straight_iff, Part.listRoom, decide_eq_true_eq, Part.CanTake]

theorem Part.rank_le (p : Part) : p.rank ≤ 33 := by
  unfold Part.rank; split <;> omega

theorem Part.rank_pos {p : Part} (can : p.CanTake) : 0 < p.rank := by
  unfold Part.rank
  rcases can with straight | room
  · rw [if_pos ((p.straight_iff).2 straight)]; omega
  · omega

theorem Part.released_cq (p : Part) (w : Producer) : (p.released w).cq = p.cq := by simp

/-- Each offer taken is one fewer that can be. -/
theorem Part.rank_take {p : Part} {w : Producer} (can : p.CanTake) (offers : p.offer? w ≠ none) :
    (p.take w).rank < p.rank := by
  obtain ⟨record, offers⟩ := Option.ne_none_iff_exists'.1 offers
  by_cases straight : p.MayWrite ∧ p.cq.list = [] ∧ p.anyFlag = false
  · have writes : ((p.writeBegun record).released w).straight = false := by
      rw [← Bool.not_eq_true, Part.straight_iff, Part.MayWrite, Part.released_cq]
      rintro ⟨⟨-, idle, -⟩, -⟩
      cases idle
    rw [Part.take_straight offers straight, Part.rank, Part.rank, writes, if_pos ((p.straight_iff).2 straight),
      Part.released_cq]
    exact Nat.add_lt_add_right Nat.zero_lt_one _
  · have room : p.cq.list.length < 32 := can.resolve_left straight
    have waits : (Part.released { p with cq := { p.cq with list := p.cq.list ++ [record] } } w).straight = false := by
      rw [← Bool.not_eq_true, Part.straight_iff, Part.released_cq]
      rintro ⟨-, empty, -⟩
      exact List.append_ne_nil_of_right_ne_nil _ (List.cons_ne_nil _ _) empty
    rw [Part.take_listed offers straight, Part.rank, waits, Part.released_cq, Part.rank,
      if_neg Bool.false_ne_true, List.length_append, List.length_singleton]
    omega

section
variable {p q : Part} {w : Producer}

theorem Part.taking_iff (p : Part) : (p.running && (p.straight || p.listRoom)) = true ↔
    p.hi.deviceState = .running ∧ p.CanTake := by
  rw [Bool.and_eq_true, Part.canTake_iff, Part.running, decide_eq_true_eq]

theorem settleOffers_shut (n : Nat) (shut : ¬(p.hi.deviceState = .running ∧ p.CanTake)) : settleOffers n p = p := by
  cases n with
  | zero => rfl
  | succ n => rw [settleOffers, if_neg (mt (p.taking_iff).1 shut)]

theorem settleOffers_none (n : Nat) (none' : p.chooseOffer = none) : settleOffers n p = p := by
  cases n with
  | zero => rfl
  | succ n =>
    rw [settleOffers, none']
    split <;> rfl

theorem settleOffers_some (n : Nat) (running : p.hi.deviceState = .running) (can : p.CanTake)
    (chosen : p.chooseOffer = some (w, q)) : settleOffers (n + 1) p = settleOffers n (q.take w) := by
  rw [settleOffers, if_pos ((p.taking_iff).2 ⟨running, can⟩), chosen]

theorem Part.chosen_rank (can : p.CanTake) (chosen : p.chooseOffer = some (w, q)) : (q.take w).rank < p.rank := by
  obtain ⟨offers, n, rfl⟩ := Part.chooseOffer_some chosen
  exact Part.rank_take (p := { p with choice := n }) can (Option.isSome_iff_ne_none.1 offers)

/-- A round more than CQ can take changes nothing. -/
theorem settleOffers_stable {n : Nat} (enough : p.rank ≤ n) : settleOffers (n + 1) p = settleOffers n p := by
  induction n generalizing p with
  | zero =>
    have full : ¬p.CanTake := fun can => Nat.not_lt.2 enough (Part.rank_pos can)
    exact settleOffers_shut 1 fun taking => full taking.2
  | succ n ih =>
    by_cases taking : p.hi.deviceState = .running ∧ p.CanTake
    · obtain ⟨running, can⟩ := taking
      cases chosen : p.chooseOffer with
      | none => rw [settleOffers_none _ chosen, settleOffers_none _ chosen]
      | some choice =>
        rw [settleOffers_some _ running can chosen, settleOffers_some _ running can chosen]
        exact ih (Nat.le_of_lt_succ (Nat.lt_of_lt_of_le (Part.chosen_rank can chosen) enough))
    · rw [settleOffers_shut _ taking, settleOffers_shut _ taking]

/-- The offers are taken as the chosen one is, and then the rest. -/
theorem Part.settle_chosen (running : p.hi.deviceState = .running) (can : p.CanTake)
    (chosen : p.chooseOffer = some (w, q)) : p.settle = (q.take w).settle := by
  have fewer : (q.take w).rank ≤ 32 :=
    Nat.le_of_lt_succ (Nat.lt_of_lt_of_le (Part.chosen_rank can chosen) p.rank_le)
  exact (settleOffers_some 32 running can chosen).trans (settleOffers_stable fewer).symm

theorem Part.settle_full (full : ¬p.CanTake) : p.settle = p := settleOffers_shut 33 fun taking => full taking.2

theorem Part.settle_idle (idle : p.offering = []) : p.settle = p :=
  settleOffers_none 33 (by rw [Part.chooseOffer, idle])

end

/-- The taking of an offer leaves the device state. -/
theorem Part.take_deviceState (p : Part) (w : Producer) : (p.take w).hi.deviceState = p.hi.deviceState := by
  unfold Part.take
  split
  · rfl
  · split <;> simp only [Part.released_frame] <;> rfl

/-- Once the offers are taken nothing is offered that CQ can take. -/
theorem settleOffers_done {n : Nat} {p : Part} (running : p.hi.deviceState = .running) (enough : p.rank ≤ n) :
    (settleOffers n p).offering = [] ∨ ¬(settleOffers n p).CanTake := by
  induction n generalizing p with
  | zero => exact .inr fun can => Nat.not_lt.2 enough (Part.rank_pos can)
  | succ n ih =>
    by_cases can : p.CanTake
    · cases chosen : p.chooseOffer with
      | none => rw [settleOffers_none _ chosen]; exact .inl (Part.chooseOffer_none chosen)
      | some choice =>
        obtain ⟨w, q⟩ := choice
        rw [settleOffers_some _ running can chosen]
        have fewer := Nat.le_of_lt_succ (Nat.lt_of_lt_of_le (Part.chosen_rank can chosen) enough)
        obtain ⟨-, m, rfl⟩ := Part.chooseOffer_some chosen
        exact ih ((Part.take_deviceState _ _).trans running) fewer
    · rw [settleOffers_shut _ fun taking => can taking.2]
      exact .inr can

theorem Part.mem_offering_iff {p : Part} {w : Producer} : w ∈ p.offering ↔ p.offer? w ≠ none :=
  (p.mem_offering w).trans Option.isSome_iff_ne_none

/-- One producer alone is chosen as it is. -/
theorem Part.chooseOffer_single {p : Part} {w : Producer} (offers : p.offer? w ≠ none)
    (alone : ∀ v, p.offer? v ≠ none → v = w) : p.chooseOffer = some (w, p) := by
  have nodup : p.offering.Nodup := List.Pairwise.filter _ (by decide : [Producer.cm, .sf, .dl].Nodup)
  have single : p.offering = [w] := by
    have perm : p.offering.Perm [w] := (List.perm_ext_iff_of_nodup nodup (List.pairwise_singleton _ w)).2 fun v => by
      rw [Part.mem_offering_iff, List.mem_singleton]
      exact ⟨alone v, fun same => same ▸ offers⟩
    exact List.perm_singleton.1 perm
  rw [Part.chooseOffer, single]

/-- Among several the free value chooses one. -/
theorem Part.chooseOffer_several {p : Part} {v w : Producer} (apart : v ≠ w) (first : p.offer? v ≠ none)
    (second : p.offer? w ≠ none) :
    ∃ u, p.offer? u ≠ none ∧ p.chooseOffer = some (u, { p with choice := p.choice + 1 }) := by
  cases chosen : p.chooseOffer with
  | none =>
    have member := Part.mem_offering_iff.2 first
    rw [Part.chooseOffer_none chosen] at member
    cases member
  | some choice =>
    obtain ⟨u, q⟩ := choice
    obtain ⟨offers, -⟩ := Part.chooseOffer_some chosen
    refine ⟨u, Option.isSome_iff_ne_none.1 offers, ?_⟩
    unfold Part.chooseOffer at chosen
    split at chosen
    · cases chosen
    · rename_i single
      have here : v ∈ p.offering ∧ w ∈ p.offering := ⟨Part.mem_offering_iff.2 first, Part.mem_offering_iff.2 second⟩
      rw [single, List.mem_singleton, List.mem_singleton] at here
      exact absurd (here.1.trans here.2.symm) apart
    · cases chosen; rfl

/-- Settles O38. -/
theorem offersAreTaken : Obligations.OffersAreTaken := by
  refine ⟨fun p running => ⟨fun w can offers alone => ?_, ?_, fun full => Part.settle_full full, ?_⟩,
    fun p => Part.settle_idle,
    fun p stopped => Part.settle_of_not_running (decide_eq_false stopped)⟩
  · exact Part.settle_chosen running can (Part.chooseOffer_single offers alone)
  · rintro can ⟨v, w, apart, first, second⟩
    obtain ⟨u, offers, chosen⟩ := Part.chooseOffer_several apart first second
    exact ⟨u, offers, Part.settle_chosen running can chosen⟩
  · refine (settleOffers_done running p.rank_le).imp_right fun full => ?_
    obtain ⟨notStraight, noRoom⟩ := not_or.1 full
    refine ⟨Nat.not_lt.1 noRoom, ?_⟩
    refine Classical.byContradiction fun none' => ?_
    simp only [not_or, Classical.not_not, Bool.not_eq_true] at none'
    exact notStraight ⟨none'.2.2, none'.1, none'.2.1⟩

/-! ## The posting order (R43, R147, R153, R154, R157) -/

section
variable {s : State}

theorem Part.writeNext_shut {p : Part} (shut : ¬p.MayWrite) : p.writeNext = p := by
  rw [← Part.mayWrite_iff, Bool.not_eq_true] at shut
  simp only [Part.writeNext, shut, Bool.not_false, if_true]

/-- An event record is written before the list. -/
theorem Part.writeNext_event {p q : Part} {record : Record} (may : p.MayWrite)
    (event : p.postEvent = some (record, q)) : p.writeNext = q.writeBegun record := by
  simp only [Part.writeNext, p.mayWrite_iff.2 may, Bool.not_true, Bool.false_eq_true, if_false, event,
    Part.beginWrite_eq]

theorem Part.writeNext_list {p : Part} {record : Record} {rest : List Record} (may : p.MayWrite)
    (noEvent : p.postEvent = none) (list : p.cq.list = record :: rest) : p.writeNext =
      (Part.grantPlace (Part.writeBegun { p with cq := { p.cq with list := rest } } record)).settle := by
  simp only [Part.writeNext, p.mayWrite_iff.2 may, Bool.not_true, Bool.false_eq_true, if_false, noEvent, list,
    Part.beginWrite_eq]

theorem Part.writeNext_empty {p : Part} (may : p.MayWrite) (noEvent : p.postEvent = none) (list : p.cq.list = []) :
    p.writeNext = p.settle := by
  simp only [Part.writeNext, p.mayWrite_iff.2 may, Bool.not_true, Bool.false_eq_true, if_false, noEvent, list]

end

section
variable {p : Part}

theorem Part.postEvent_link (link : p.lk.eventFlag = true) : p.postEvent =
    some (p.linkRecord, { p with lk := { p.lk with eventFlag := false, transitions := 0 } }) :=
  if_pos link

variable (noLink : p.lk.eventFlag = false)
include noLink

theorem Part.postEvent_protocol (protocol : p.lk.protocolFlag = true) : p.postEvent =
    some (.linkProtocolError p.lk.protocolCause p.lk.protocolCount,
      { p with lk := { p.lk with protocolFlag := false, protocolCause := .none, protocolCount := 0 } }) := by
  simp only [Part.postEvent, noLink, protocol, Bool.false_eq_true, if_false, if_true]

variable (noProtocol : p.lk.protocolFlag = false)
include noProtocol

theorem Part.postEvent_stream {i : Fin 64} (flagged : (p.stream i).anyFlag = true)
    (first : ∀ j, j < i → (p.stream j).anyFlag = false) : p.postEvent =
      some (((p.stream i).post i).1, { p with streams := p.streams.set i ((p.stream i).post i).2 }) := by
  have lowest : p.flaggedStream = some i := (find_numbers ..).2 ⟨flagged, first⟩
  simp only [Part.postEvent, noLink, noProtocol, Bool.false_eq_true, if_false, lowest]
  rfl

variable (noStream : ∀ i, (p.stream i).anyFlag = false)
include noStream

theorem Part.postEvent_ring {r : Fin 8} (flagged : (p.landRing r).emptyFlag = true)
    (first : ∀ q, q < r → (p.landRing q).emptyFlag = false) : p.postEvent =
      some (.landingEmpty r,
        { p with dl := { p.dl with rings := p.dl.rings.set r { p.landRing r with emptyFlag := false } } }) := by
  have none' : p.flaggedStream = none := (find_numbers_none ..).2 noStream
  have lowest : p.flaggedRing = some r := (find_numbers ..).2 ⟨flagged, first⟩
  simp only [Part.postEvent, noLink, noProtocol, Bool.false_eq_true, if_false, none', lowest, Option.map_some]
  rfl

theorem Part.postEvent_none (noRing : ∀ r, (p.landRing r).emptyFlag = false) : p.postEvent = none := by
  have none' : p.flaggedStream = none := (find_numbers_none ..).2 noStream
  have noRing' : p.flaggedRing = none := (find_numbers_none ..).2 noRing
  simp only [Part.postEvent, noLink, noProtocol, Bool.false_eq_true, if_false, none', noRing', Option.map_none]

end

/-- The place freed on the list goes to the first producer that waits, after the turn (R157). -/
theorem Part.grantPlace_find {p : Part} {w : Producer}
    (found : [nextProducer p.cq.turn, nextProducer (nextProducer p.cq.turn), p.cq.turn].find?
      (fun w => (p.offer? w).isSome) = some w) :
    p.grantPlace = Part.take { p with cq := { p.cq with turn := w } } w := by
  have cycle : nextProducer (nextProducer (nextProducer p.cq.turn)) = p.cq.turn := by cases p.cq.turn <;> rfl
  simp only [Part.grantPlace, cycle, found]

theorem Part.grantPlace_none {p : Part} (none' : ∀ w, p.offer? w = none) : p.grantPlace = p := by
  simp only [Part.grantPlace, List.find?, none', Option.isSome_none]

/-- Settles O39. -/
theorem postingOrder : Obligations.PostingOrder := by
  refine ⟨fun s => ⟨fun shut => ?_, fun may link => ?_, fun may noLink protocol => ?_,
    fun may noLink noProtocol => ⟨fun i flagged first => ⟨fun ended => ?_, fun notEnded offered => ?_,
      fun notEnded notOffered => ?_⟩, fun noStream => ⟨fun r flagged first => ?_, fun noRing =>
      ⟨fun record rest list => ?_, fun list => ?_⟩⟩⟩⟩, fun p => ?_⟩
  · exact exec_of_effect (Part.writeNext_shut shut)
  · exact exec_of_effect (Part.writeNext_event may (Part.postEvent_link link))
  · exact exec_of_effect (Part.writeNext_event may (Part.postEvent_protocol noLink protocol))
  · refine exec_of_effect ((Part.writeNext_event may (Part.postEvent_stream noLink noProtocol flagged first)).trans ?_)
    rw [StreamEntry.post, if_pos ended]
  · refine exec_of_effect ((Part.writeNext_event may (Part.postEvent_stream noLink noProtocol flagged first)).trans ?_)
    rw [StreamEntry.post, notEnded, if_neg Bool.false_ne_true, if_pos offered]
  · refine exec_of_effect ((Part.writeNext_event may (Part.postEvent_stream noLink noProtocol flagged first)).trans ?_)
    rw [StreamEntry.post, notEnded, if_neg Bool.false_ne_true, notOffered, if_neg Bool.false_ne_true]
  · exact exec_of_effect (Part.writeNext_event may (Part.postEvent_ring noLink noProtocol noStream flagged first))
  · exact exec_of_effect
      (Part.writeNext_list may (Part.postEvent_none noLink noProtocol noStream noRing) list)
  · exact exec_of_effect
      (Part.writeNext_empty may (Part.postEvent_none noLink noProtocol noStream noRing) list)
  · intro next waits given t
    have offers {w : Producer} (waiting : waits w) : (p.offer? w).isSome = true :=
      Option.isSome_iff_ne_none.2 waiting
    have idle {w : Producer} (notWaiting : ¬waits w) : (p.offer? w).isSome = false := by
      rw [Classical.not_not.1 notWaiting]; rfl
    have nextIs : nextProducer = next := by funext w; cases w <;> rfl
    refine ⟨fun one => ?_, fun one two => ?_, fun one two three => ?_, fun none' => ?_⟩
    · exact Part.grantPlace_find (by rw [nextIs]; simp [List.find?, t, offers one])
    · exact Part.grantPlace_find (by rw [nextIs]; simp [List.find?, t, idle one, offers two])
    · exact Part.grantPlace_find (by rw [nextIs]; simp [List.find?, t, idle one, idle two, offers three])
    · exact Part.grantPlace_none fun w => Classical.not_not.1 (none' w)

/-! ## Interrupt moderation (R147, R159 to R161) -/

/-- The records written are announced, with at most one interrupt message. -/
theorem Part.announce_eq (p : Part) : ∃ n ≤ 1, p.announce =
    { p with
      hi := { p.hi with event := p.hi.event ||| 1, interrupts := p.hi.interrupts + n }
      cq := { p.cq with unannounced := 0, holdoffTimer := .idle } } := by
  obtain ⟨n, most, raised⟩ :=
    Part.raise_eq { p with cq := { p.cq with unannounced := 0, holdoffTimer := .idle } } eventCompletion
  exact ⟨n, most, raised⟩

section
variable {p : Part}

theorem Part.countRecord_announces (due : p.hi.config.threshold ≤ p.cq.unannounced + 1
      ∨ (p.cq.unannounced + 1 = 1 ∧ p.hi.config.holdoff = 0)) : p.countRecord = p.announce := by
  unfold Part.countRecord
  rcases due with full | ⟨first, atOnce⟩
  · exact if_pos full
  · simp only [first, atOnce, if_true, ite_self]

theorem Part.countRecord_first (below : p.cq.unannounced + 1 < p.hi.config.threshold) (first : p.cq.unannounced + 1 = 1)
    (later : p.hi.config.holdoff ≠ 0) : p.countRecord =
      { p with cq := { p.cq with unannounced := 1, holdoffTimer := .running p.hi.config.holdoff } } := by
  simp only [Part.countRecord, if_neg (Nat.not_le.2 below)]
  rw [if_pos first, if_neg later, first]

theorem Part.countRecord_counts (below : p.cq.unannounced + 1 < p.hi.config.threshold)
    (more : p.cq.unannounced + 1 ≠ 1) : p.countRecord =
      { p with cq := { p.cq with unannounced := p.cq.unannounced + 1 } } := by
  simp only [Part.countRecord, if_neg (Nat.not_le.2 below), if_neg more]

/-- The part once a completion record's write has ended, before the record is counted. -/
def Part.recordWritten (p : Part) : Part :=
  { p with
    hi := { p.hi with accesses := p.hi.accesses.filter fun x => decide (x.kind ≠ .completionWrite) }
    cq := { p.cq with writer := .idle } }

theorem Part.completionWriteEnds_ok {a : Access} (inFlight : p.access? .completionWrite = some a)
    (running : p.hi.deviceState = .running) : p.completionWriteEnds true = p.recordWritten.countRecord :=
  (Part.onAccessEnd_delivered inFlight running).trans (if_pos rfl)

end

/-- Settles O40. -/
theorem interruptModeration : Obligations.InterruptModeration := by
  refine fun s => ⟨fun a inFlight running => ?_, fun k runs => ?_⟩
  · have ends := Part.completionWriteEnds_ok inFlight running
    refine ⟨fun due => ?_, fun below first later => ?_, fun below more => ?_⟩
    · obtain ⟨n, most, announced⟩ := s.toPart.recordWritten.announce_eq
      exact ⟨n, most, exec_of_effect (ends.trans ((Part.countRecord_announces (p := s.toPart.recordWritten) due).trans
        announced))⟩
    · exact exec_of_effect (ends.trans (Part.countRecord_first below first later))
    · exact exec_of_effect (ends.trans (Part.countRecord_counts below more))
  · obtain ⟨n, most, announced⟩ := s.toPart.announce_eq
    have runs' : s.cq.holdoffTimer.isRunning = true := by rw [runs]; rfl
    exact ⟨n, most, exec_of_effect ((if_pos runs').trans announced)⟩

end Sys2Proof.Machine

/-! PROOF. The commands LINK_START, LINK_STOP, STREAM_OPEN and STREAM_CLOSE (R4, R5, R13 to R16, R24, R33, R34, R40, R72,
R80, R102, R131, R142, R165 to R172). -/

namespace Sys2Proof.Machine

/-! ## LINK_START and LINK_STOP (R33, R34, R40, R167, R168) -/

section
variable {s : State} {tag : BitVec 32} (reading : s.ReadInFlight .command)
include reading

theorem exec_linkStart_taken (code window : Nat) : exec (.linkStart tag code window) s = s.become
    (Part.linkStart (s.commandTaken tag (.linkStart code window) .acting) code window).settle :=
  Part.recordArrives_command reading tag (.linkStart code window)

theorem exec_linkStop_taken : exec (.linkStop tag) s = s.become
    (Part.linkStop (s.commandTaken tag .linkStop .acting)).settle :=
  Part.recordArrives_command reading tag .linkStop

theorem exec_streamOpen_taken (stream sendRing landingRing allotment batch size : Nat) :
    exec (.streamOpen tag stream sendRing landingRing allotment batch size) s = s.become
      (Part.streamOpen (s.commandTaken tag (.streamOpen stream sendRing landingRing allotment batch size) .acting)
        stream sendRing landingRing allotment batch size).settle :=
  Part.recordArrives_command reading tag (.streamOpen stream sendRing landingRing allotment batch size)

theorem exec_streamClose_taken (stream : Nat) : exec (.streamClose tag stream) s = s.become
    (Part.streamClose (s.commandTaken tag (.streamClose stream) .acting) stream).settle :=
  Part.recordArrives_command reading tag (.streamClose stream)

end

/-- What CM's action on the copy comes to. -/
theorem exec_of_acts {s : State} {row : Instr} {p q : Part} (taken : exec row s = s.become p.settle) (acts : p = q) :
    exec row s = s.become q.settle := by
  rw [taken, acts]

theorem linkStartValid_iff (code window : Nat) : linkStartValid code window = true ↔
    code ≤ 3 ∧ 16 ≤ window ∧ window ≤ 256 := by
  simp [linkStartValid, and_assoc]

section
variable {p : Part} {code window : Nat}

theorem Part.linkStart_of_not_offline (online : p.lk.state ≠ .offline) :
    p.linkStart code window = p.completeCommand .badState := if_pos online

variable (offline : p.lk.state = .offline)
include offline

theorem Part.linkStart_of_not_valid (outside : ¬(code ≤ 3 ∧ 16 ≤ window ∧ window ≤ 256)) :
    p.linkStart code window = p.completeCommand .badParam := by
  rw [← linkStartValid_iff, Bool.not_eq_true] at outside
  simp [Part.linkStart, offline, outside]

theorem Part.linkStart_of_valid (inRange : code ≤ 3 ∧ 16 ≤ window ∧ window ≤ 256) : p.linkStart code window =
    (Part.enterBySignal
      { p with lk := { p.lk with offeredCode := code, offeredWindow := window } }).completeCommand .ok := by
  simp [Part.linkStart, offline, (linkStartValid_iff ..).2 inRange]

end

/-- The link goes OFFLINE, and the LINK_STOP in progress completes. -/
theorem Part.enterOffline_stops (s : State) (tag : BitVec 32) :
    Part.enterOffline (s.commandTaken tag .linkStop .acting) =
      { s.commandTaken tag .linkStop (.offered .ok) with lk := { s.lk with
          state := .offline, helloDue := .none, helloTimer := .idle, holdoffTimer := .idle, helloExit := none } } := rfl

section
variable {p : Part}

theorem Part.linkStop_of_down (down : p.lk.state = .awaitSignal ∨ p.lk.state = .holdoff
      ∨ (p.lk.state = .hello ∧ p.lk.transmission = none)) : p.linkStop = p.enterOffline := by
  rcases down with state | state | ⟨state, free⟩
  · simp [Part.linkStop, state]
  · simp [Part.linkStop, state]
  · simp [Part.linkStop, state, free]

theorem Part.linkStop_of_hello_busy (hello : p.lk.state = .hello) (busy : p.lk.transmission ≠ none) : p.linkStop =
    { p with lk := { p.lk with helloTimer := .idle, helloDue := .none, helloExit := some true } } := by
  simp [Part.linkStop, hello, Option.isSome_iff_ne_none.2 busy]

theorem Part.linkStop_of_up (up : p.lk.state = .up) (none' : p.lk.teardown = none) :
    p.linkStop = p.beginTeardown .stopped none := by
  simp [Part.linkStop, up, none']

theorem Part.linkStop_of_pending {t : Teardown} (up : p.lk.state = .up) (pending : p.lk.teardown = some t) :
    p.linkStop = { p with lk := { p.lk with teardown := some { t with stopRequested := true } } } := by
  simp [Part.linkStop, up, pending]

theorem Part.linkStop_of_offline (offline : p.lk.state = .offline) : p.linkStop = p.completeCommand .badState := by
  simp [Part.linkStop, offline]

end

/-- Settles O41. -/
theorem linkCommands : Obligations.LinkCommands := by
  intro s tag reading
  refine ⟨fun code window => ?_, ?_⟩
  · have starts {q : Part} (acts : Part.linkStart (s.commandTaken tag (.linkStart code window) .acting) code window = q) :
        exec (.linkStart tag code window) s = s.become q.settle := exec_of_acts (exec_linkStart_taken reading ..) acts
    refine ⟨fun online => ?_, fun offline outside => ?_, fun offline inRange present => ?_,
      fun offline inRange absent => ?_⟩
    · exact starts ((Part.linkStart_of_not_offline (p := s.commandTaken tag (.linkStart code window) .acting)
        online).trans (Part.completeCommand_taken ..))
    · exact starts ((Part.linkStart_of_not_valid (p := s.commandTaken tag (.linkStart code window) .acting) offline
        outside).trans (Part.completeCommand_taken ..))
    · exact starts ((Part.linkStart_of_valid (p := s.commandTaken tag (.linkStart code window) .acting) offline inRange).trans
        (congrArg (Part.completeCommand · .ok) (if_pos present)))
    · have absent' : ¬s.lk.signalPresent = true := by rw [absent]; exact Bool.false_ne_true
      exact starts ((Part.linkStart_of_valid (p := s.commandTaken tag (.linkStart code window) .acting) offline inRange).trans
        (congrArg (Part.completeCommand · .ok) (if_neg absent')))
  · have stops {q : Part} (acts : Part.linkStop (s.commandTaken tag .linkStop .acting) = q) :
        exec (.linkStop tag) s = s.become q.settle := exec_of_acts (exec_linkStop_taken reading) acts
    refine ⟨fun offline => ?_, fun down => ?_, fun hello busy => ?_, fun up none' => ⟨fun free => ?_, fun busy => ?_⟩,
      fun up t pending => ?_⟩
    · exact stops ((Part.linkStop_of_offline (p := s.commandTaken tag .linkStop .acting) offline).trans
      (Part.completeCommand_taken ..))
    · exact stops ((Part.linkStop_of_down (p := s.commandTaken tag .linkStop .acting) down).trans
      (Part.enterOffline_stops ..))
    · exact stops (Part.linkStop_of_hello_busy (p := s.commandTaken tag .linkStop .acting) hello busy)
    · exact stops ((Part.linkStop_of_up (p := s.commandTaken tag .linkStop .acting) up none').trans
        (Part.beginTeardown_free (s.commandTaken tag .linkStop .acting) up none'))
    · exact stops ((Part.linkStop_of_up (p := s.commandTaken tag .linkStop .acting) up none').trans
        (Part.beginTeardown_busy (s.commandTaken tag .linkStop .acting) up none' busy))
    · exact stops (Part.linkStop_of_pending (p := s.commandTaken tag .linkStop .acting) up pending)

/-! ## STREAM_OPEN (R4, R5, R24, R72, R169, R170) -/

theorem streamOpenValid_iff (stream sendRing landingRing allotment batch size : Nat) :
    streamOpenValid stream sendRing landingRing allotment batch size = true ↔
      stream ≤ 63 ∧ sendRing ≤ 3 ∧ landingRing ≤ 7 ∧ 1 ≤ allotment ∧ allotment ≤ 128 ∧ 64 ≤ size
        ∧ size ≤ 1048576 ∧ 1 ≤ batch ∧ batch ≤ allotment := by
  simp [streamOpenValid, and_assoc]

section
variable {p : Part} {stream sendRing landingRing allotment batch size : Nat}

theorem Part.streamOpen_deaf (deaf : ¬p.Listening) :
    p.streamOpen stream sendRing landingRing allotment batch size = p.completeCommand .linkNotUp := by
  rw [← Part.listens_iff, Bool.not_eq_true] at deaf
  simp only [Part.streamOpen, deaf, Bool.not_false, if_true]

variable (listening : p.Listening)
include listening

theorem Part.streamOpen_invalid
    (outside : streamOpenValid stream sendRing landingRing allotment batch size = false) :
    p.streamOpen stream sendRing landingRing allotment batch size = p.completeCommand .badParam := by
  simp only [Part.streamOpen, (Part.listens_iff p).2 listening, outside, Bool.not_true, Bool.not_false,
    Bool.false_eq_true, if_false, if_true]

/-- With valid parameters the stream's state and the room in the store decide. -/
theorem Part.streamOpen_valid {i : Fin 64} {a : Fin 4} {r : Fin 8}
    (inRange : streamOpenValid i.val a.val r.val allotment batch size = true) :
    p.streamOpen i.val a.val r.val allotment batch size =
      if (p.stream i).state ≠ .closed ∧ (p.stream i).state ≠ .offered then p.completeCommand .badState
      else if 512 < p.ib.reservedTotal + allotment then p.completeCommand .noSpace
      else (p.openStream i a r allotment batch size).completeCommand .ok := by
  simp only [Part.streamOpen, (Part.listens_iff p).2 listening, inRange, Bool.not_true, Bool.false_eq_true, if_false,
    index?, i.isLt, a.isLt, r.isLt, dif_pos, Bool.and_eq_true, decide_eq_true_eq]

end

/-- A request to queue a GRANT (R24). -/
theorem Part.queueGrant_eq (p : Part) (i : Fin 64) (allotment credits size : Nat) :
    p.queueGrant i allotment credits size =
      { p with control :=
          if p.grantWaits i then p.control.map (ControlEntry.merge i credits)
          else if p.withdrawWaits i then p.control
          else p.control ++ [.grant i allotment credits size] } := by
  unfold Part.queueGrant
  split
  · rfl
  · split <;> rfl

/-- The opening of a stream: its entry, its reservation and the control queue with the first GRANT (R4, R5, R72). -/
theorem Part.openStream_eq (p : Part) (i : Fin 64) (a : Fin 4) (r : Fin 8) (allotment batch size : Nat) :
    p.openStream i a r allotment batch size =
      { p with
        streams := p.streams.set i
          { p.stream i with
            state := if (p.stream i).state = .offered then .opened else .localOpen
            sendRing := a, landingRing := r, maxInbound := size, allotment := allotment
            returnBatch := batch, occupancy := 0, pendingReturns := 0 }
        ib := { p.ib with reservedTotal := p.ib.reservedTotal + allotment }
        control :=
          if p.grantWaits i then p.control.map (ControlEntry.merge i allotment)
          else if p.withdrawWaits i then p.control
          else p.control ++ [.grant i allotment allotment size] } := by
  rw [Part.openStream, Part.queueGrant_eq, Part.reserve, Part.modStream_modStream]
  rfl

/-- Settles O42. -/
theorem streamOpenEffect : Obligations.StreamOpenEffect := by
  intro s tag stream sendRing landingRing allotment batch size reading command row done listens valid
  have opens {q : Part} (acts : Part.streamOpen (s.commandTaken tag command .acting) stream sendRing landingRing
      allotment batch size = q) : exec row s = s.become q.settle :=
    exec_of_acts (exec_streamOpen_taken reading ..) acts
  refine ⟨fun deaf => ?_, fun listening outside => ?_, fun i a r listening inRange => ?_⟩
  · exact opens ((Part.streamOpen_deaf (p := s.commandTaken tag command .acting) deaf).trans (Part.completeCommand_taken ..))
  · have outside' : streamOpenValid stream sendRing landingRing allotment batch size = false := by
      rw [← Bool.not_eq_true, streamOpenValid_iff]; exact outside
    exact opens ((Part.streamOpen_invalid (p := s.commandTaken tag command .acting) listening outside').trans
      (Part.completeCommand_taken ..))
  · rintro rfl rfl rfl
    have checks := Part.streamOpen_valid (p := s.commandTaken tag command .acting) listening
      ((streamOpenValid_iff ..).2 inRange)
    refine ⟨fun notClosed notOffered => ?_, fun here full => ?_, fun here room => ?_⟩
    · exact opens (checks.trans ((if_pos ⟨notClosed, notOffered⟩).trans (Part.completeCommand_taken ..)))
    · exact opens (checks.trans ((if_neg fun ⟨notClosed, notOffered⟩ => here.elim notClosed notOffered).trans
        ((if_pos full).trans (Part.completeCommand_taken ..))))
    · have opened := checks.trans ((if_neg fun ⟨notClosed, notOffered⟩ => here.elim notClosed notOffered).trans
        ((if_neg (Nat.not_lt.2 room)).trans (congrArg (Part.completeCommand · .ok) (Part.openStream_eq ..))))
      refine ⟨fun noGrant noWithdraw => ?_, fun noGrant withdraw => ?_, fun grant => ?_⟩
      · refine opens (opened.trans ?_)
        change Part.completeCommand { s.commandTaken tag command .acting with
          streams := _, ib := _, control := if s.grantWaits i then _ else if s.withdrawWaits i then _ else _ } .ok = _
        rw [noGrant, noWithdraw]
        rfl
      · refine opens (opened.trans ?_)
        change Part.completeCommand { s.commandTaken tag command .acting with
          streams := _, ib := _, control := if s.grantWaits i then _ else if s.withdrawWaits i then _ else _ } .ok = _
        rw [noGrant, withdraw]
        rfl
      · refine opens (opened.trans ?_)
        change Part.completeCommand { s.commandTaken tag command .acting with
          streams := _, ib := _, control := if s.grantWaits i then _ else if s.withdrawWaits i then _ else _ } .ok = _
        rw [grant]
        rfl

/-! ## STREAM_CLOSE (R13 to R16, R80, R171, R172) -/

section
variable {p : Part} {i : Fin 64}

theorem StreamEntry.leave_of_none {e : StreamEntry} (none' : e.offer = none) : e.leave = e.cleared := by
  simp only [StreamEntry.leave, none']

theorem StreamEntry.leave_of_some {e : StreamEntry} {o : Offer} (offer : e.offer = some o) :
    e.leave = e.offeredWith o := by
  simp only [StreamEntry.leave, offer]

/-- STREAM_CLOSE of a stream in a state. -/
def Part.closeBy (p : Part) (i : Fin 64) (state : StreamState) : Part :=
  match state with
  | .closed | .closing => p.completeCommand .badState
  | .localOpen =>
    if p.grantWaits i then (((p.removeGrant i).release i).modStream i StreamEntry.cleared).completeCommand .ok
    else p.closeOpen i
  | .opened => p.closeOpen i
  | .offered => p.startClosing i
  | .winding => p.closeWinding i
  | .disrupted => p.closeDisrupted i

theorem Part.streamClose_eq {st : StreamState} (state : (p.stream i).state = st) :
    p.streamClose i.val = p.closeBy i st := by
  have here : index? 64 i.val = some i := by simp [index?]
  subst state
  rw [Part.streamClose, here]
  rfl

theorem Part.streamClose_outside {n : Nat} (outside : 64 ≤ n) : p.streamClose n = p.completeCommand .badParam := by
  have none' : index? 64 n = none := dif_neg (Nat.not_lt.2 outside)
  simp only [Part.streamClose, none']

/-- The inbound queue goes, and the allotment with it (R73, R80). -/
theorem Part.discardRelease_eq (p : Part) (i : Fin 64) : (p.discardQueue i).release i =
    { p with
      streams := p.streams.set i
        { p.stream i with occupancy := 0, allotment := 0, returnBatch := 0, pendingReturns := 0 }
      ib := { p.ib with
        reservedTotal := p.ib.reservedTotal - (p.stream i).allotment
        freeCount := p.ib.freeCount + dataCount (p.queue i), queues := p.ib.queues.set i [] } } := by
  simp only [Part.discardQueue, Part.release, Part.setQueue, Part.modStream, Table.modify, Part.stream,
    Table.get_set_self, Table.set_set]

/-- What the close of an open stream gives up, before its contexts are decided (R13). -/
theorem Part.closeOpen_eq (p : Part) (i : Fin 64) : p.closeOpen i =
    (let begun : Part :=
      { p with
        streams := p.streams.set i
          { p.stream i with
            state := .closing, closeWaiting := true, peerAllotment := 0, peerMaxMessage := 0, credits := 0
            occupancy := 0, allotment := 0, returnBatch := 0, pendingReturns := 0 }
        ib := { p.ib with
          reservedTotal := p.ib.reservedTotal - (p.stream i).allotment
          freeCount := p.ib.freeCount + dataCount (p.queue i), queues := p.ib.queues.set i [] }
        control := (p.control.filter fun x => !(x.isGrantOf i || x.isCutOf i))
          ++ if p.withdrawWaits i then [] else [.withdraw i] }
    ((begun.decideAll (p.cancelled i) .cancelled).dropStagedOfStream i).closeDelivery i) := by
  have begun := Part.discardRelease_eq (p.startClosing i) i
  rw [Part.startClosing_eq] at begun
  simp only [Part.stream, Table.get_set_self, Table.set_set] at begun
  simp only [Part.closeOpen, Part.startClosing_eq, begun, Part.cancelled, Part.stream, Table.get_set_self]
  rfl

theorem Part.closeWinding_eq (p : Part) (i : Fin 64) : p.closeWinding i =
    Part.closeDelivery
      { p with
        streams := p.streams.set i
          { p.stream i with
            closeWaiting := true, markerProcessed := true
            occupancy := 0, allotment := 0, returnBatch := 0, pendingReturns := 0 }
        ib := { p.ib with
          reservedTotal := p.ib.reservedTotal - (p.stream i).allotment
          freeCount := p.ib.freeCount + dataCount (p.queue i), queues := p.ib.queues.set i [] } } i := by
  rw [Part.closeWinding, Part.discardRelease_eq]
  simp only [Part.modStream_eq_set, Part.stream, Table.get_set_self, Table.set_set]
  rfl

end

/-! ### What DL gives up (R131, R142) -/

section
variable {p : Part} {i : Fin 64}

/-- DL's part of a close is a step at the stream's ring, then the exit test and the ring's needs. -/
def Part.closesBy (p : Part) (i : Fin 64) (q : Part) : Prop :=
  p.closeDelivery i = (q.exitTest i).refreshRing (p.stream i).landingRing

/-- The ring without the stream's place in its claim queue. -/
def Part.unclaimed (p : Part) (i : Fin 64) : LandingRing :=
  { p.landRing (p.stream i).landingRing with
    claimQueue := (p.landRing (p.stream i).landingRing).claimQueue.filter fun j => decide (j ≠ i) }

theorem Part.modLandRing_eq (p : Part) (r : Fin 8) (f : LandingRing → LandingRing) :
    p.modLandRing r f = p.withRing r (f (p.landRing r)) := rfl

theorem Part.withRing_withRing (p : Part) (r : Fin 8) (g h : LandingRing) :
    (p.withRing r g).withRing r h = p.withRing r h := by
  simp only [Part.withRing, Table.set_set]

@[simp] theorem Part.landRing_withRing (p : Part) (r : Fin 8) (g : LandingRing) : (p.withRing r g).landRing r = g :=
  Table.get_set_self ..

theorem Part.closesBy_nothing (stands : (p.landRing (p.stream i).landingRing).holder ≠ some i
      ∨ (p.landRing (p.stream i).landingRing).waiting ≠ none) :
    p.closesBy i (p.withRing (p.stream i).landingRing (p.unclaimed i)) := by
  have test : (decide ((p.landRing (p.stream i).landingRing).holder ≠ some i)
      || (p.landRing (p.stream i).landingRing).waiting.isSome) = true := by
    rw [Bool.or_eq_true, decide_eq_true_eq, Option.isSome_iff_ne_none]
    exact stands
  simp only [Part.closesBy, Part.closeDelivery, if_pos test]
  rfl

variable (holds : (p.landRing (p.stream i).landingRing).holder = some i)
    (noWaiting : (p.landRing (p.stream i).landingRing).waiting = none)
include holds noWaiting

theorem Part.closesBy_landing {l : Landing} (flies : (p.landRing (p.stream i).landingRing).landing = some l) :
    p.closesBy i
      (if l.cause = .none then
        ((p.withRing (p.stream i).landingRing
          { p.unclaimed i with landing := some { l with cause := .cancelled, unplaced := [] } }).endLanding
            (p.stream i).landingRing)
      else p.withRing (p.stream i).landingRing (p.unclaimed i)) := by
  simp only [Part.closesBy, Part.closeDelivery, holds, noWaiting, flies, ne_eq, not_true, decide_false,
    Option.isSome_none, Bool.or_self, Bool.false_eq_true, if_false, Part.modLandRing_modLandRing]
  rfl

theorem Part.closesBy_noLanding (noLanding : (p.landRing (p.stream i).landingRing).landing = none) :
    p.closesBy i
      (if (p.stream i).reassembly.mode = .assembling then
        (p.withRing (p.stream i).landingRing (p.unclaimed i)).endMessage i .cancelled .assembling
      else
        (((p.withRing (p.stream i).landingRing (p.unclaimed i)).setMode i .idle).modLandRing
          (p.stream i).landingRing fun g => { g with holder := none }).passClaim (p.stream i).landingRing) := by
  simp only [Part.closesBy, Part.closeDelivery, holds, noWaiting, noLanding, ne_eq, not_true, decide_false,
    Option.isSome_none, Bool.or_self, Bool.false_eq_true, if_false]
  rfl

end

/-- A landing that still waits for writes does not end. -/
theorem Part.endLanding_waits {p : Part} {r : Fin 8} {l : Landing} (flies : (p.landRing r).landing = some l)
    (waits : l.ended = false) : p.endLanding r = p := by
  simp only [Part.endLanding, flies, waits, Bool.not_false, if_true]

/-- A landing that a close cut short ends CANCELLED with its last write. -/
theorem Part.endLanding_cancelled {p : Part} {r : Fin 8} {l : Landing} (flies : (p.landRing r).landing = some l)
    (ended : l.ended = true) (fresh : l.kept = none) (cancelled : l.cause = .cancelled) : p.endLanding r =
      ((p.modLandRing r fun g => { g with landing := none }).messageEnded l.stream .cancelled
        (p.stream l.stream).reassembly.mode).refreshRing r := by
  simp only [Part.endLanding, flies, ended, Bool.not_true, Bool.false_eq_true, if_false, fresh, cancelled,
    Part.endMessage_eq]
  rfl

/-- Settles O43. -/
theorem streamCloseEffect : Obligations.StreamCloseEffect := by
  refine ⟨fun s tag reading => ⟨fun n outside => ?_, fun i => ?_⟩, fun p i => ?_⟩
  · exact exec_of_acts (exec_streamClose_taken reading n)
      ((Part.streamClose_outside outside).trans (Part.completeCommand_taken ..))
  · have closes {q : Part} {st : StreamState} (state : (s.stream i).state = st)
        (acts : (s.commandTaken tag (.streamClose i.val) .acting).closeBy i st = q) :
        exec (.streamClose tag i.val) s = s.become q.settle :=
      exec_of_acts (exec_streamClose_taken reading i.val) ((Part.streamClose_eq (p := s.commandTaken ..) state).trans acts)
    refine ⟨?_, fun localOpen grant => ?_, ?_, fun offered => ?_, fun winding => ?_, fun disrupted withdraw => ?_,
      fun disrupted quiet none' => ?_, fun disrupted quiet o offer => ?_⟩
    · rintro (closed | closing)
      · exact closes closed (Part.completeCommand_taken ..)
      · exact closes closing (Part.completeCommand_taken ..)
    · exact closes localOpen ((if_pos grant).trans (congrArg (Part.completeCommand · .ok) (Part.cancelGrant_eq ..)))
    · rintro (opened | ⟨localOpen, noGrant⟩)
      · exact closes opened (Part.closeOpen_eq ..)
      · have noGrant' : ¬s.grantWaits i = true := by rw [noGrant]; exact Bool.false_ne_true
        exact closes localOpen ((if_neg noGrant').trans (Part.closeOpen_eq ..))
    · exact closes offered (Part.startClosing_eq ..)
    · exact closes winding (Part.closeWinding_eq ..)
    · exact closes disrupted (if_pos withdraw)
    · have quiet' : ¬s.withdrawWaits i = true := by rw [quiet]; exact Bool.false_ne_true
      refine closes disrupted ((if_neg quiet').trans ?_)
      exact congrArg (fun e : StreamEntry => Part.completeCommand
        { s.commandTaken tag (.streamClose i.val) .acting with streams := s.streams.set i e } .ok)
        (StreamEntry.leave_of_none none')
    · have quiet' : ¬s.withdrawWaits i = true := by rw [quiet]; exact Bool.false_ne_true
      refine closes disrupted ((if_neg quiet').trans ?_)
      exact congrArg (fun e : StreamEntry => Part.completeCommand
        { s.commandTaken tag (.streamClose i.val) .acting with streams := s.streams.set i e } .ok)
        (StreamEntry.leave_of_some offer)
  · intro e r ring left after
    refine ⟨fun stands => Part.closesBy_nothing stands, fun holds noWaiting => ⟨fun l flies fresh writes => ?_,
      fun l flies fresh none' unkept => ?_, fun l flies decided => ?_, fun noLanding assembling => ?_,
      fun noLanding idle => ?_⟩⟩
    · have closes := Part.closesBy_landing holds noWaiting flies
      have waits : Landing.ended { l with cause := .cancelled, unplaced := [] } = false := by simpa [Landing.ended]
      rw [if_pos fresh, Part.endLanding_waits (congrArg LandingRing.landing (p.landRing_withRing ..)) waits] at closes
      exact closes
    · have closes := Part.closesBy_landing holds noWaiting flies
      have ended : Landing.ended { l with cause := .cancelled, unplaced := [] } = true := by simp [Landing.ended, none']
      rw [if_pos fresh, Part.endLanding_cancelled (congrArg LandingRing.landing (p.landRing_withRing ..)) ended unkept
        rfl, Part.modLandRing_eq, Part.landRing_withRing, Part.withRing_withRing] at closes
      exact closes
    · have closes := Part.closesBy_landing holds noWaiting flies
      rw [if_neg decided] at closes
      exact closes
    · have closes := Part.closesBy_noLanding holds noWaiting noLanding
      rw [if_pos assembling, Part.endMessage_eq] at closes
      exact closes
    · have closes := Part.closesBy_noLanding holds noWaiting noLanding
      have freed : ((p.withRing r left).setMode i .idle).modLandRing r (fun g => { g with holder := none }) =
          (p.withRing r { left with holder := none }).withStream i
            { e with reassembly := { e.reassembly with mode := .idle } } := by
        rw [Part.modLandRing_eq]
        simp only [Part.setMode, Part.withRing, Part.modStream, Part.landRing, Table.get_set_self, Table.set_set]
        rfl
      rw [if_neg idle] at closes
      exact closes.trans (congrArg (fun q : Part => ((q.passClaim r).exitTest i).refreshRing r) freed)

end Sys2Proof.Machine

/-! PROOF. Byte layouts (R29, R174, R175, R194, R196): the fields of the two snapshots, the queries that write them, and
the parcels read back. -/

namespace Sys2Proof.Machine

/-! ## Little-endian fields (R194) -/

theorem leValue_leBytes (k n : Nat) : leValue (leBytes k n) = n % 256 ^ k := by
  induction k generalizing n with
  | zero => exact (Nat.mod_one n).symm
  | succ k ih =>
    have split : n % 256 ^ (k + 1) = n % 256 + 256 * (n / 256 % 256 ^ k) := by rw [Nat.pow_succ', Nat.mod_mul]
    rw [leBytes, leValue, ih, BitVec.toNat_ofNat, split]

@[simp] theorem leBytes_length (k n : Nat) : (leBytes k n).length = k := by
  induction k generalizing n with
  | zero => rfl
  | succ k ih => rw [leBytes, List.length_cons, ih]

/-- The field that some bytes fill. -/
theorem fieldAt_eq {bytes : List Byte} {offset size n : Nat} (fill : (bytes.drop offset).take size = leBytes size n) :
    fieldAt bytes offset size = n % 256 ^ size := by
  rw [fieldAt, fill, leValue_leBytes]

/-- The field that some bytes fill with a number that fits. -/
theorem fieldAt_eq_of_lt {bytes : List Byte} {offset size n : Nat}
    (fill : (bytes.drop offset).take size = leBytes size n) (fits : n < 256 ^ size) : fieldAt bytes offset size = n :=
  (fieldAt_eq fill).trans (Nat.mod_eq_of_lt fits)

/-! ## Parcels read back (R29, R196) -/

theorem parcelBody_length (p : Parcel) : 4 ≤ (parcelBody p).length := by
  cases p <;> simp only [parcelBody, List.length_append, leBytes_length] <;> omega

/-- The check word passes, and the body is read. -/
theorem readParcel_parcelBytes (size : Nat) (p : Parcel) :
    readParcel size (parcelBytes p) = readBody size (parcelBody p) := by
  have long := parcelBody_length p
  have length : (parcelBytes p).length = (parcelBody p).length + 4 := by
    rw [parcelBytes, List.length_append, leBytes_length]
  have body : (parcelBytes p).take ((parcelBytes p).length - 4) = parcelBody p := by
    rw [length, Nat.add_sub_cancel, parcelBytes, List.take_left]
  have check : fieldAt (parcelBytes p) ((parcelBytes p).length - 4) 4 = (checkWord (parcelBody p)).toNat := by
    refine fieldAt_eq_of_lt ?_ (checkWord (parcelBody p)).isLt
    rw [length, Nat.add_sub_cancel, parcelBytes, List.drop_left]
    exact List.take_of_length_le (Nat.le_of_eq (leBytes_length ..))
  simp only [readParcel, body, check, if_true]
  rw [if_neg (by omega)]

theorem Seq.ofNat_toNat_mod (seq : Seq) : BitVec.ofNat 12 (seq.toNat % 256 ^ 2) = seq := by
  rw [Nat.mod_eq_of_lt (Nat.lt_trans seq.isLt (by decide)), BitVec.ofNat_toNat, BitVec.setWidth_eq]

/-- The two flags of a DATA parcel share a byte. -/
theorem flags_of_byte (first last : Bool) :
    (((flagBit first 0 + flagBit last 1) % 256 ^ 1) % 2 == 1) = first
      ∧ (((flagBit first 0 + flagBit last 1) % 256 ^ 1) / 2 % 2 == 1) = last := by
  revert first last; decide

section
variable {size : Nat} {seq : Seq}

theorem readBody_data {d : DataParcel} (fits : d.wellFormed = true) (some' : 1 ≤ d.payload.length)
    (short : d.payload.length ≤ size) : readBody size (parcelBody (.data seq d)) = some (.data seq d) := by
  simp only [DataParcel.wellFormed, fitsByte, fitsHalf, Bool.and_eq_true, decide_eq_true_eq] at fits
  obtain ⟨⟨stream, index⟩, payload⟩ := fits
  obtain ⟨first, last⟩ := flags_of_byte d.first d.last
  have kind : fieldAt (parcelBody (.data seq d)) 0 1 = 1 := fieldAt_eq_of_lt (n := 1) rfl (by decide)
  have streamIs : fieldAt (parcelBody (.data seq d)) 1 1 = d.stream := fieldAt_eq_of_lt rfl stream
  have seqIs : fieldAt (parcelBody (.data seq d)) 2 2 = seq.toNat % 256 ^ 2 := fieldAt_eq rfl
  have indexIs : fieldAt (parcelBody (.data seq d)) 4 2 = d.index :=
    fieldAt_eq_of_lt rfl (Nat.lt_trans index (by decide))
  have flagsIs : fieldAt (parcelBody (.data seq d)) 6 1 = (flagBit d.first 0 + flagBit d.last 1) % 256 ^ 1 :=
    fieldAt_eq rfl
  have lengthIs : fieldAt (parcelBody (.data seq d)) 8 2 = d.payload.length := fieldAt_eq_of_lt rfl payload
  have markIs : fieldAt (parcelBody (.data seq d)) 0x0A 2 = d.mark.toNat := fieldAt_eq_of_lt rfl d.mark.isLt
  have length : (parcelBody (.data seq d)).length = 12 + d.payload.length := by
    simp only [parcelBody, List.length_append, leBytes_length]
  have rest : (parcelBody (.data seq d)).drop 12 = d.payload := rfl
  simp only [readBody, kind, lengthIs, length, some', short, and_self, if_true, streamIs, seqIs, indexIs, flagsIs, first,
    last, markIs, rest, Seq.ofNat_toNat_mod, Nat.mod_eq_of_lt index, BitVec.ofNat_toNat, BitVec.setWidth_eq]

theorem readBody_grant {g : GrantParcel} (fits : g.wellFormed = true) :
    readBody size (parcelBody (.grant seq g)) = some (.grant seq g) := by
  simp only [GrantParcel.wellFormed, fitsByte, fitsWord, Bool.and_eq_true, decide_eq_true_eq] at fits
  obtain ⟨⟨⟨stream, allotment⟩, credits⟩, most⟩ := fits
  have kind : fieldAt (parcelBody (.grant seq g)) 0 1 = 2 := fieldAt_eq_of_lt (n := 2) rfl (by decide)
  have streamIs : fieldAt (parcelBody (.grant seq g)) 1 1 = g.stream := fieldAt_eq_of_lt rfl stream
  have seqIs : fieldAt (parcelBody (.grant seq g)) 2 2 = seq.toNat % 256 ^ 2 := fieldAt_eq rfl
  have allotmentIs : fieldAt (parcelBody (.grant seq g)) 4 1 = g.allotment := fieldAt_eq_of_lt rfl allotment
  have creditsIs : fieldAt (parcelBody (.grant seq g)) 5 1 = g.credits := fieldAt_eq_of_lt rfl credits
  have mostIs : fieldAt (parcelBody (.grant seq g)) 8 4 = g.maxMessage := fieldAt_eq_of_lt rfl most
  have length : (parcelBody (.grant seq g)).length = 12 := rfl
  simp only [readBody, kind, length, if_true, streamIs, seqIs, allotmentIs, creditsIs, mostIs, Seq.ofNat_toNat_mod]

theorem readBody_hello {h : HelloParcel} (fits : h.wellFormed = true) :
    readBody size (parcelBody (.hello h)) = some (.hello h) := by
  simp only [HelloParcel.wellFormed, fitsByte, fitsHalf, Bool.and_eq_true, decide_eq_true_eq] at fits
  obtain ⟨⟨⟨epoch, seen⟩, code⟩, window⟩ := fits
  have kind : fieldAt (parcelBody (.hello h)) 0 1 = 0x13 := fieldAt_eq_of_lt (n := 0x13) rfl (by decide)
  have epochIs : fieldAt (parcelBody (.hello h)) 1 1 = h.epoch := fieldAt_eq_of_lt rfl epoch
  have seenIs : fieldAt (parcelBody (.hello h)) 2 1 = h.seen := fieldAt_eq_of_lt rfl seen
  have codeIs : fieldAt (parcelBody (.hello h)) 3 1 = h.code := fieldAt_eq_of_lt rfl code
  have windowIs : fieldAt (parcelBody (.hello h)) 4 2 = h.window := fieldAt_eq_of_lt rfl window
  have labelIs : fieldAt (parcelBody (.hello h)) 8 4 = h.label.toNat := fieldAt_eq_of_lt rfl h.label.isLt
  have length : (parcelBody (.hello h)).length = 12 := rfl
  simp only [readBody, kind, length, if_true, epochIs, seenIs, codeIs, windowIs, labelIs, BitVec.ofNat_toNat,
    BitVec.setWidth_eq]

theorem readBody_withdraw {stream : Nat} (fits : stream < 256) :
    readBody size (parcelBody (.withdraw seq stream)) = some (.withdraw seq stream) := by
  have kind : fieldAt (parcelBody (.withdraw seq stream)) 0 1 = 3 := fieldAt_eq_of_lt (n := 3) rfl (by decide)
  have streamIs : fieldAt (parcelBody (.withdraw seq stream)) 1 1 = stream := fieldAt_eq_of_lt rfl fits
  have seqIs : fieldAt (parcelBody (.withdraw seq stream)) 2 2 = seq.toNat % 256 ^ 2 := fieldAt_eq rfl
  have length : (parcelBody (.withdraw seq stream)).length = 8 := rfl
  simp only [readBody, kind, length, if_true, streamIs, seqIs, Seq.ofNat_toNat_mod]

theorem readBody_cut {stream : Nat} (fits : stream < 256) :
    readBody size (parcelBody (.cut seq stream)) = some (.cut seq stream) := by
  have kind : fieldAt (parcelBody (.cut seq stream)) 0 1 = 4 := fieldAt_eq_of_lt (n := 4) rfl (by decide)
  have streamIs : fieldAt (parcelBody (.cut seq stream)) 1 1 = stream := fieldAt_eq_of_lt rfl fits
  have seqIs : fieldAt (parcelBody (.cut seq stream)) 2 2 = seq.toNat % 256 ^ 2 := fieldAt_eq rfl
  have length : (parcelBody (.cut seq stream)).length = 8 := rfl
  simp only [readBody, kind, length, if_true, streamIs, seqIs, Seq.ofNat_toNat_mod]

/-- The parcels of four bytes: a kind, a reserved byte and a number. -/
theorem readBody_short (p : Parcel) (short : p = .void seq ∨ p = .ack seq ∨ p = .retry seq) :
    readBody size (parcelBody p) = some p := by
  have seqIs : fieldAt (parcelBody p) 2 2 = seq.toNat % 256 ^ 2 := by
    rcases short with rfl | rfl | rfl <;> exact fieldAt_eq rfl
  have length : (parcelBody p).length = 4 := by rcases short with rfl | rfl | rfl <;> rfl
  rcases short with rfl | rfl | rfl
  · have kind : fieldAt (parcelBody (.void seq)) 0 1 = 5 := fieldAt_eq_of_lt (n := 5) rfl (by decide)
    simp only [readBody, kind, length, if_true, seqIs, Seq.ofNat_toNat_mod]
  · have kind : fieldAt (parcelBody (.ack seq)) 0 1 = 0x11 := fieldAt_eq_of_lt (n := 0x11) rfl (by decide)
    simp only [readBody, kind, length, if_true, seqIs, Seq.ofNat_toNat_mod]
  · have kind : fieldAt (parcelBody (.retry seq)) 0 1 = 0x12 := fieldAt_eq_of_lt (n := 0x12) rfl (by decide)
    simp only [readBody, kind, length, if_true, seqIs, Seq.ofNat_toNat_mod]

end

/-- Settles O51: the check word passes, and each field is read as it was spelled. -/
theorem parcelRoundTrip : Obligations.ParcelRoundTrip := by
  intro size p fits payload
  rw [readParcel_parcelBytes]
  cases p with
  | data seq d =>
    obtain ⟨some', short⟩ := payload seq d rfl
    exact readBody_data fits some' short
  | grant seq g => exact readBody_grant fits
  | withdraw seq stream => exact readBody_withdraw (of_decide_eq_true fits)
  | cut seq stream => exact readBody_cut (of_decide_eq_true fits)
  | void seq => exact readBody_short _ (.inl rfl)
  | ack seq => exact readBody_short _ (.inr (.inl rfl))
  | retry seq => exact readBody_short _ (.inr (.inr rfl))
  | hello h => exact readBody_hello fits

/-! ## Layouts: fields one after another -/

/-- The bytes of some fields, each a width and a number. -/
def spell (fields : List (Nat × Nat)) : List Byte := fields.flatMap fun f => leBytes f.1 f.2

/-- The width of some fields together. -/
def widths (fields : List (Nat × Nat)) : Nat := (fields.map Prod.fst).sum

theorem spell_length (fields : List (Nat × Nat)) : (spell fields).length = widths fields := by
  simp [spell, widths, List.length_flatMap]

/-- Each field stands at the widths of those before it. -/
theorem fieldAt_spell (before after : List (Nat × Nat)) (k n : Nat) :
    fieldAt (spell (before ++ (k, n) :: after)) (widths before) k = n % 256 ^ k := by
  refine fieldAt_eq ?_
  rw [spell, List.flatMap_append, List.flatMap_cons, ← spell_length, spell, List.drop_left]
  exact List.take_left' (leBytes_length ..)

/-- From `offset` on, some bytes hold the fields of a layout one after another. -/
def Holds (bytes : List Byte) (offset : Nat) : List (Nat × Nat) → Prop
  | [] => True
  | (k, n) :: rest => fieldAt bytes offset k = n % 256 ^ k ∧ Holds bytes (offset + k) rest

theorem holds_spell (before : List (Nat × Nat)) :
    ∀ rest, Holds (spell (before ++ rest)) (widths before) rest
  | [] => trivial
  | (k, n) :: rest => by
    refine ⟨fieldAt_spell before rest k n, ?_⟩
    have held := holds_spell (before ++ [(k, n)]) rest
    simpa [widths] using held

/-! ## The link snapshot (R175) -/

/-- The fields of a link snapshot. -/
def Part.linkFields (p : Part) : List (Nat × Nat) :=
  let l := p.lk
  let c := l.counters
  [(1, l.state.code), (1, l.localEpoch), (1, l.peerEpoch), (1, 0), (4, l.peerLabel.toNat), (2, l.payloadSize),
    (2, l.window), (2, p.sq.next.toNat), (2, p.sq.replay.length), (2, p.sq.expected.toNat), (2, p.ib.freeCount),
    (2, p.ib.reservedTotal), (1, p.cq.list.length), (1, 0), (2, p.cq.free), (2, p.cq.serial), (4, c.parcelsSent),
    (4, c.parcelsReplayed), (4, c.retriesSent), (4, c.retriesReceived), (4, c.badParcels), (4, c.duplicates),
    (4, c.staleAcks), (4, c.protocolErrors), (4, c.linkFaults)]

theorem padTo_full {size : Nat} {bytes : List Byte} (full : size ≤ bytes.length) : padTo size bytes = bytes := by
  rw [padTo, Nat.sub_eq_zero_of_le full, List.replicate_zero, List.append_nil]

theorem Part.linkSnapshot_eq (p : Part) : p.linkSnapshot = spell p.linkFields := by
  rw [Part.linkSnapshot, padTo_full]
  · simp only [spell, Part.linkFields, List.flatMap_cons, List.flatMap_nil, List.append_nil, List.append_assoc]
  · simp only [List.length_append, leBytes_length]; decide

theorem Seq.toNat_mod (q : Seq) : q.toNat % 65536 = q.toNat :=
  Nat.mod_eq_of_lt (Nat.lt_trans q.isLt (by decide))

theorem LinkState.code_lt (st : LinkState) : st.code < 256 := by cases st <;> decide

theorem Part.widths_linkFields (p : Part) : widths p.linkFields = 64 := by simp [widths, Part.linkFields]

theorem Part.linkSnapshot_fields (p : Part) :
    let b := p.linkSnapshot
    let l := p.lk
    let n := l.counters
    b.length = 64
      ∧ fieldAt b 0x00 1 = l.state.code ∧ fieldAt b 0x01 1 = l.localEpoch % 256 ∧ fieldAt b 0x02 1 = l.peerEpoch % 256
      ∧ fieldAt b 0x03 1 = 0 ∧ fieldAt b 0x04 4 = l.peerLabel.toNat ∧ fieldAt b 0x08 2 = l.payloadSize % 65536
      ∧ fieldAt b 0x0A 2 = l.window % 65536 ∧ fieldAt b 0x0C 2 = p.sq.next.toNat
      ∧ fieldAt b 0x0E 2 = p.sq.replay.length % 65536 ∧ fieldAt b 0x10 2 = p.sq.expected.toNat
      ∧ fieldAt b 0x12 2 = p.ib.freeCount % 65536 ∧ fieldAt b 0x14 2 = p.ib.reservedTotal % 65536
      ∧ fieldAt b 0x16 1 = p.cq.list.length % 256 ∧ fieldAt b 0x17 1 = 0 ∧ fieldAt b 0x18 2 = p.cq.free % 65536
      ∧ fieldAt b 0x1A 2 = p.cq.serial % 65536 ∧ fieldAt b 0x1C 4 = n.parcelsSent % 2 ^ 32
      ∧ fieldAt b 0x20 4 = n.parcelsReplayed % 2 ^ 32 ∧ fieldAt b 0x24 4 = n.retriesSent % 2 ^ 32
      ∧ fieldAt b 0x28 4 = n.retriesReceived % 2 ^ 32 ∧ fieldAt b 0x2C 4 = n.badParcels % 2 ^ 32
      ∧ fieldAt b 0x30 4 = n.duplicates % 2 ^ 32 ∧ fieldAt b 0x34 4 = n.staleAcks % 2 ^ 32
      ∧ fieldAt b 0x38 4 = n.protocolErrors % 2 ^ 32 ∧ fieldAt b 0x3C 4 = n.linkFaults % 2 ^ 32 := by
  intro b l n
  have size : b.length = 64 := by
    rw [show b = _ from p.linkSnapshot_eq, spell_length, p.widths_linkFields]
  have held : Holds b 0 p.linkFields := by
    rw [show b = _ from p.linkSnapshot_eq]
    exact holds_spell [] p.linkFields
  clear_value b
  simp only [Holds, Part.linkFields, Nat.reduceAdd, Nat.reducePow, Nat.mod_eq_of_lt p.lk.state.code_lt, Seq.toNat_mod,
    Nat.mod_eq_of_lt (show p.lk.peerLabel.toNat < 4294967296 from p.lk.peerLabel.isLt), Nat.zero_mod, and_true,
    Nat.zero_add] at held
  exact ⟨size, held⟩

/-! ## The stream snapshot (R174) -/

/-- The event and exit flags of a stream, as one byte of its snapshot. -/
def StreamEntry.flagsByte (e : StreamEntry) : Nat :=
  flagBit e.withdrawSequenced 0 + flagBit e.peerWithdrawSeen 1 + flagBit e.markerProcessed 2
    + flagBit e.closeWaiting 3 + flagBit e.offeredFlag 4 + flagBit e.endedFlag 5 + flagBit e.protocolFlag 6

/-- The fields of a stream snapshot; the last one is reserved. -/
def Part.streamFields (p : Part) (i : Fin 64) : List (Nat × Nat) :=
  let e := p.stream i
  let o := e.offer.getD ⟨0, 0, 0⟩
  [(1, i.val), (1, e.state.code), (1, e.sendRing.val), (1, e.landingRing.val), (4, e.maxInbound), (1, e.peerAllotment),
    (1, flagBit e.offer.isSome 0), (1, o.allotment), (1, o.credits), (4, e.peerMaxMessage), (4, o.maxMessage),
    (1, e.flagsByte), (1, e.protocolCause.code), (1, e.protocolCount), (1, 0), (1, e.allotment), (1, e.returnBatch),
    (1, e.occupancy), (1, e.pendingReturns), (1, (p.queue i).length), (1, e.credits),
    (1, flagBit (p.stagedIndex i).isSome 0), (1, e.sendLine.length), (2, (p.stagedIndex i).getD 0),
    (1, e.reassembly.mode.code), (1, p.claimStanding i), (2, e.reassembly.expected), (2, 0),
    (4, e.reassembly.bytesSoFar), (20, 0)]

theorem Part.widths_streamFields (p : Part) (i : Fin 64) : widths (p.streamFields i) = 64 := by
  simp [widths, Part.streamFields]

theorem Part.streamSnapshot_eq (p : Part) (i : Fin 64) : p.streamSnapshot i = spell (p.streamFields i) := by
  have reserved : List.replicate 20 (0 : Byte) = leBytes 20 0 := by decide
  simp only [Part.streamSnapshot, padTo, List.length_append, leBytes_length, Nat.reduceAdd, Nat.reduceSub, reserved,
    spell, Part.streamFields, StreamEntry.flagsByte, List.flatMap_cons, List.flatMap_nil, List.append_nil,
    List.append_assoc]

theorem StreamState.code_lt (st : StreamState) : st.code < 256 := by cases st <;> decide

theorem ProtocolCause.code_lt (cause : ProtocolCause) : cause.code < 256 := by cases cause <;> decide

theorem Mode.code_lt (mode : Mode) : mode.code < 256 := by cases mode <;> decide

theorem flagBit_zero_mod (flag : Bool) : flagBit flag 0 % 256 = if flag then 1 else 0 := by cases flag <;> rfl

/-- Each flag is one bit of the byte. -/
theorem StreamEntry.bits_of_flagsByte (e : StreamEntry) :
    let bit (n : Nat) : Bool := e.flagsByte % 256 / 2 ^ n % 2 == 1
    bit 0 = e.withdrawSequenced ∧ bit 1 = e.peerWithdrawSeen ∧ bit 2 = e.markerProcessed ∧ bit 3 = e.closeWaiting
      ∧ bit 4 = e.offeredFlag ∧ bit 5 = e.endedFlag ∧ bit 6 = e.protocolFlag ∧ bit 7 = false := by
  simp only [StreamEntry.flagsByte]
  generalize e.withdrawSequenced = a, e.peerWithdrawSeen = b, e.markerProcessed = c, e.closeWaiting = d,
    e.offeredFlag = f, e.endedFlag = g, e.protocolFlag = h
  revert a b c d f g h
  decide

/-- What the data staging slot holds of a stream. -/
theorem Part.staged_cases (p : Part) (i : Fin 64) :
    (∃ wanted reads d, p.tx.staging = .reading d wanted reads ∧ d.stream = i ∧ p.stagedIndex i = some d.index)
      ∨ (∃ d payload, p.tx.staging = .ready d payload ∧ d.stream = i ∧ p.stagedIndex i = some d.index)
      ∨ ((∀ d wanted reads, p.tx.staging = .reading d wanted reads → d.stream ≠ i)
        ∧ (∀ d payload, p.tx.staging = .ready d payload → d.stream ≠ i) ∧ p.stagedIndex i = none) := by
  cases slot : p.tx.staging with
  | empty => exact .inr (.inr ⟨nofun, nofun, by simp [Part.stagedIndex, slot, Staging.parcel?]⟩)
  | reading d wanted reads =>
    by_cases here : d.stream = i
    · exact .inl ⟨wanted, reads, d, rfl, here, by simp [Part.stagedIndex, slot, Staging.parcel?, here]⟩
    · exact .inr (.inr ⟨fun _ _ _ same => by cases same; exact here, nofun,
        by simp [Part.stagedIndex, slot, Staging.parcel?, here]⟩)
  | ready d payload =>
    by_cases here : d.stream = i
    · exact .inr (.inl ⟨d, payload, rfl, here, by simp [Part.stagedIndex, slot, Staging.parcel?, here]⟩)
    · exact .inr (.inr ⟨nofun, fun _ _ same => by cases same; exact here,
        by simp [Part.stagedIndex, slot, Staging.parcel?, here]⟩)

theorem Part.claimStanding_mod (p : Part) (i : Fin 64) : p.claimStanding i % 256 =
    if (p.ringOf i).holder = some i then 1 else if i ∈ (p.ringOf i).claimQueue then 2 else 0 := by
  have queued : ((p.ringOf i).claimQueue.any fun j => decide (j = i)) = true ↔ i ∈ (p.ringOf i).claimQueue := by simp
  simp only [Part.claimStanding, queued, apply_ite (· % 256)]

/-- The fields that a stream snapshot holds. -/
theorem Part.streamSnapshot_holds (p : Part) (i : Fin 64) : Holds (p.streamSnapshot i) 0 (p.streamFields i) := by
  rw [p.streamSnapshot_eq]
  exact holds_spell [] (p.streamFields i)

theorem Part.streamSnapshot_length (p : Part) (i : Fin 64) : (p.streamSnapshot i).length = 64 := by
  rw [p.streamSnapshot_eq, spell_length, p.widths_streamFields]

theorem Part.streamSnapshot_fields (p : Part) (i : Fin 64) :
    let b := p.streamSnapshot i
    let e := p.stream i
    let ring := p.landRing e.landingRing
    let bit (n : Nat) : Bool := fieldAt b 0x14 1 / 2 ^ n % 2 == 1
    b.length = 64
      ∧ fieldAt b 0x00 1 = i.val ∧ fieldAt b 0x01 1 = e.state.code ∧ fieldAt b 0x02 1 = e.sendRing.val
      ∧ fieldAt b 0x03 1 = e.landingRing.val ∧ fieldAt b 0x04 4 = e.maxInbound % 2 ^ 32
      ∧ fieldAt b 0x08 1 = e.peerAllotment % 256
      ∧ (e.offer = none →
          fieldAt b 0x09 1 = 0 ∧ fieldAt b 0x0A 1 = 0 ∧ fieldAt b 0x0B 1 = 0 ∧ fieldAt b 0x10 4 = 0)
      ∧ (∀ o, e.offer = some o →
          fieldAt b 0x09 1 = 1 ∧ fieldAt b 0x0A 1 = o.allotment % 256 ∧ fieldAt b 0x0B 1 = o.credits % 256
            ∧ fieldAt b 0x10 4 = o.maxMessage % 2 ^ 32)
      ∧ fieldAt b 0x0C 4 = e.peerMaxMessage % 2 ^ 32
      ∧ bit 0 = e.withdrawSequenced ∧ bit 1 = e.peerWithdrawSeen ∧ bit 2 = e.markerProcessed ∧ bit 3 = e.closeWaiting
      ∧ bit 4 = e.offeredFlag ∧ bit 5 = e.endedFlag ∧ bit 6 = e.protocolFlag ∧ bit 7 = false
      ∧ fieldAt b 0x15 1 = e.protocolCause.code ∧ fieldAt b 0x16 1 = e.protocolCount % 256 ∧ fieldAt b 0x17 1 = 0
      ∧ fieldAt b 0x18 1 = e.allotment % 256 ∧ fieldAt b 0x19 1 = e.returnBatch % 256
      ∧ fieldAt b 0x1A 1 = e.occupancy % 256 ∧ fieldAt b 0x1B 1 = e.pendingReturns % 256
      ∧ fieldAt b 0x1C 1 = (p.queue i).length % 256 ∧ fieldAt b 0x1D 1 = e.credits % 256
      ∧ ((∃ wanted reads d, p.tx.staging = .reading d wanted reads ∧ d.stream = i
            ∧ fieldAt b 0x1E 1 = 1 ∧ fieldAt b 0x20 2 = d.index % 65536)
          ∨ (∃ d payload, p.tx.staging = .ready d payload ∧ d.stream = i
            ∧ fieldAt b 0x1E 1 = 1 ∧ fieldAt b 0x20 2 = d.index % 65536)
          ∨ ((∀ d wanted reads, p.tx.staging = .reading d wanted reads → d.stream ≠ i)
            ∧ (∀ d payload, p.tx.staging = .ready d payload → d.stream ≠ i)
            ∧ fieldAt b 0x1E 1 = 0 ∧ fieldAt b 0x20 2 = 0))
      ∧ fieldAt b 0x1F 1 = e.sendLine.length % 256 ∧ fieldAt b 0x22 1 = e.reassembly.mode.code
      ∧ fieldAt b 0x23 1 =
          (if ring.holder = some i then 1 else if i ∈ ring.claimQueue then 2 else 0)
      ∧ fieldAt b 0x24 2 = e.reassembly.expected % 65536 ∧ fieldAt b 0x26 2 = 0
      ∧ fieldAt b 0x28 4 = e.reassembly.bytesSoFar % 2 ^ 32 ∧ fieldAt b 0x2C 20 = 0 := by
  intro b e ring bit
  have held : Holds b 0 (p.streamFields i) := p.streamSnapshot_holds i
  have size : b.length = 64 := p.streamSnapshot_length i
  clear_value b
  have stream : i.val % 256 = i.val := Nat.mod_eq_of_lt (Nat.lt_trans i.isLt (by decide))
  have sends : (p.stream i).sendRing.val % 256 = (p.stream i).sendRing.val :=
    Nat.mod_eq_of_lt (Nat.lt_trans (p.stream i).sendRing.isLt (by decide))
  have lands : (p.stream i).landingRing.val % 256 = (p.stream i).landingRing.val :=
    Nat.mod_eq_of_lt (Nat.lt_trans (p.stream i).landingRing.isLt (by decide))
  simp only [Holds, Part.streamFields, Nat.reduceAdd, Nat.reducePow, Nat.zero_add, Nat.zero_mod, and_true, stream, sends,
    lands, Nat.mod_eq_of_lt (p.stream i).state.code_lt, Nat.mod_eq_of_lt (p.stream i).protocolCause.code_lt,
    Nat.mod_eq_of_lt (p.stream i).reassembly.mode.code_lt, flagBit_zero_mod, p.claimStanding_mod] at held
  obtain ⟨stream, state, sends, lands, maxInbound, peerAllotment, offered, offerAllotment, offerCredits, peerMax,
    offerMax, flags, cause, count, reserved, allotment, batch, occupancy, returns, queue, credits, staged, line, index,
    mode, standing, expected, reserved', bytes, rest⟩ := held
  have bits := (p.stream i).bits_of_flagsByte
  simp only [← flags] at bits
  obtain ⟨b0, b1, b2, b3, b4, b5, b6, b7⟩ := bits
  refine ⟨size, stream, state, sends, lands, maxInbound, peerAllotment, fun none' => ?_, fun o some' => ?_, peerMax, b0, b1,
    b2, b3, b4, b5, b6, b7, cause, count, reserved, allotment, batch, occupancy, returns, queue, credits, ?_, line, mode,
    standing, expected, reserved', bytes, rest⟩
  · have none' : (p.stream i).offer = none := none'
    simp only [none', Option.getD_none, Option.isSome_none, Nat.zero_mod] at offered offerAllotment offerCredits offerMax
    exact ⟨offered, offerAllotment, offerCredits, offerMax⟩
  · have some' : (p.stream i).offer = some o := some'
    simp only [some', Option.getD_some, Option.isSome_some, if_true] at offered offerAllotment offerCredits offerMax
    exact ⟨offered, offerAllotment, offerCredits, offerMax⟩
  · rcases p.staged_cases i with ⟨wanted, reads, d, slot, here, is⟩ | ⟨d, payload, slot, here, is⟩ |
      ⟨notReading, notReady, is⟩
    · simp only [is, Option.getD_some, Option.isSome_some, if_true] at staged index
      exact .inl ⟨wanted, reads, d, slot, here, staged, index⟩
    · simp only [is, Option.getD_some, Option.isSome_some, if_true] at staged index
      exact .inr (.inl ⟨d, payload, slot, here, staged, index⟩)
    · simp only [is, Option.getD_none, Option.isSome_none, Nat.zero_mod] at staged index
      exact .inr (.inr ⟨notReading, notReady, staged, index⟩)

/-! ## The queries and the end of their write (R44, R173) -/

theorem queryAddressValid_iff (address : Addr) : queryAddressValid address = true ↔ address.toNat % 64 = 0 := by
  simp [queryAddressValid]

section
variable {p : Part} {address : Addr}

theorem Part.streamQuery_outside {n : Nat} (outside : 64 ≤ n) : p.streamQuery n address = p.completeCommand .badParam := by
  have none' : index? 64 n = none := dif_neg (Nat.not_lt.2 outside)
  rw [Part.streamQuery, none']

theorem Part.streamQuery_val (i : Fin 64) : p.streamQuery i.val address =
    if queryAddressValid address then p.beginSnapshot address (p.streamSnapshot i) else p.completeCommand .badParam := by
  have here : index? 64 i.val = some i := by simp [index?]
  rw [Part.streamQuery, here]

theorem Part.streamQuery_misaligned {n : Nat} (misaligned : address.toNat % 64 ≠ 0) :
    p.streamQuery n address = p.completeCommand .badParam := by
  by_cases outside : 64 ≤ n
  · exact Part.streamQuery_outside outside
  · obtain ⟨i, rfl⟩ : ∃ i : Fin 64, n = i.val := ⟨⟨n, Nat.not_le.1 outside⟩, rfl⟩
    exact (Part.streamQuery_val i).trans (if_neg (mt (queryAddressValid_iff _).1 misaligned))

end

section
variable {s : State} {tag : BitVec 32} (reading : s.ReadInFlight .command)
include reading

theorem exec_streamQuery_taken (n : Nat) (address : Addr) : exec (.streamQuery tag n address) s = s.become
    (Part.streamQuery (s.commandTaken tag (.streamQuery n address) .acting) n address).settle :=
  Part.recordArrives_command reading tag (.streamQuery n address)

theorem exec_linkQuery_taken (clear : Bool) (address : Addr) : exec (.linkQuery tag clear address) s = s.become
    (Part.linkQuery (s.commandTaken tag (.linkQuery clear address) .acting) address).settle :=
  Part.recordArrives_command reading tag (.linkQuery clear address)

end

section
variable {p : Part} {command : Command} {tag : BitVec 32} {copied : Counters}
  (writing : p.cm.command = some ⟨command, tag, .writing copied⟩)
include writing

/-- What CM's answer leaves of a command whose snapshot is being written. -/
theorem Part.completeCommand_writing (status : Status) : p.completeCommand status =
    { p with cm := { p.cm with command := some ⟨command, tag, .offered status⟩ } } := by
  simp only [Part.completeCommand, writing, Option.map_some]

theorem Part.snapshotEnds_failed : p.snapshotEnds false = p.completeCommand .hostWriteFault := by
  simp only [Part.snapshotEnds, writing, Bool.not_false, if_true]

theorem Part.snapshotEnds_kept (keeps : ∀ address, command ≠ .linkQuery true address) :
    p.snapshotEnds true = p.completeCommand .ok := by
  simp only [Part.snapshotEnds, writing, Bool.not_true, Bool.false_eq_true, if_false]

theorem Part.snapshotEnds_cleared {address : Addr} (clears : command = .linkQuery true address) :
    p.snapshotEnds true = (p.modCounters fun c => c.minus copied).completeCommand .ok := by
  simp only [Part.snapshotEnds, writing, clears, Bool.not_true, Bool.false_eq_true, if_false]

end

/-- Settles O44. -/
theorem queryEffect : Obligations.QueryEffect := by
  refine ⟨fun p i => p.streamSnapshot_fields i, fun p => p.linkSnapshot_fields, fun s tag address reading => ?_,
    fun s a command tag copied running inFlight writing => ?_⟩
  · refine ⟨fun n refused => ?_, fun i aligned => ?_, fun clear misaligned => ?_, fun clear aligned => ?_⟩
    · refine exec_of_acts (exec_streamQuery_taken reading n address) (Eq.trans ?_ (Part.completeCommand_taken ..))
      rcases refused with outside | misaligned
      · exact Part.streamQuery_outside outside
      · exact Part.streamQuery_misaligned misaligned
    · exact exec_of_acts (exec_streamQuery_taken reading i.val address)
        ((Part.streamQuery_val i).trans (if_pos ((queryAddressValid_iff _).2 aligned)))
    · exact exec_of_acts (exec_linkQuery_taken reading clear address)
        ((if_neg (mt (queryAddressValid_iff _).1 misaligned)).trans (Part.completeCommand_taken ..))
    · exact exec_of_acts (exec_linkQuery_taken reading clear address) (if_pos ((queryAddressValid_iff _).2 aligned))
  · have ends (ok : Bool) : Part.snapshotWriteEnds s.toPart ok = _ := Part.onAccessEnd_delivered inFlight running
    have phase : (s.toPart.endAccess .snapshotWrite).cm.command = some ⟨command, tag, .writing copied⟩ := writing
    refine ⟨exec_of_effect ((ends false).trans ?_), fun keeps => exec_of_effect ((ends true).trans ?_),
      fun address clears => exec_of_effect ((ends true).trans ?_)⟩
    · rw [Part.snapshotEnds_failed phase, Part.completeCommand_writing phase]
      rfl
    · rw [Part.snapshotEnds_kept phase keeps, Part.completeCommand_writing phase]
      rfl
    · have phase' : ((s.toPart.endAccess .snapshotWrite).modCounters fun c => c.minus copied).cm.command =
          some ⟨command, tag, .writing copied⟩ := writing
      rw [Part.snapshotEnds_cleared phase clears, Part.completeCommand_writing phase']
      rfl

end Sys2Proof.Machine

/-! PROOF. Claims, the gap timer and the empty episode of a landing ring (R128 to R130, R140). -/

namespace Sys2Proof.Machine

/-! ## Claims (R129, R130) -/

section
variable {p : Part} {i : Fin 64}

/-- Stream `i` is in a position to ask for its ring's claim (R129). -/
def Part.Asks (p : Part) (i : Fin 64) : Prop :=
  (∃ d rest, p.queue i = .data d :: rest ∧ d.index = 0) ∧ (p.stream i).reassembly.mode ≠ .assembling ∧ ¬p.Busy i
    ∧ (p.landRing (p.stream i).landingRing).holder ≠ some i
    ∧ i ∉ (p.landRing (p.stream i).landingRing).claimQueue

theorem Part.askClaim_of_not_asks (silent : ¬p.Asks i) : p.askClaim i = p := by
  have silent' : p.mayAsk i = false := by rwa [← Bool.not_eq_true, Part.mayAsk_iff]
  simp only [Part.askClaim, silent', Bool.not_false, if_true]

theorem Part.askClaim_free (asks : p.Asks i) (free : (p.landRing (p.stream i).landingRing).Free) : p.askClaim i =
    p.withRing (p.stream i).landingRing
      { p.landRing (p.stream i).landingRing with holder := some i } := by
  simp only [Part.askClaim, (Part.mayAsk_iff p i).2 asks, Part.ringOf, (LandingRing.isFree_iff _).2 free, Bool.not_true,
    Bool.false_eq_true, if_false, if_true, Part.modLandRing_eq]

theorem Part.askClaim_queued (asks : p.Asks i) (held : ¬(p.landRing (p.stream i).landingRing).Free) : p.askClaim i =
    p.withRing (p.stream i).landingRing
      { p.landRing (p.stream i).landingRing with
        claimQueue := (p.landRing (p.stream i).landingRing).claimQueue ++ [i] } := by
  rw [← LandingRing.isFree_iff, Bool.not_eq_true] at held
  simp only [Part.askClaim, (Part.mayAsk_iff p i).2 asks, Part.ringOf, held, Bool.not_true, Bool.false_eq_true, if_false,
    Part.modLandRing_eq]

end

section
variable {p : Part} {r : Fin 8}

theorem Part.passClaim_next {j : Fin 64} {rest : List (Fin 64)} (free : (p.landRing r).Free)
    (queued : (p.landRing r).claimQueue = j :: rest) :
    p.passClaim r = p.withRing r { p.landRing r with holder := some j, claimQueue := rest } := by
  rw [← LandingRing.isFree_iff] at free
  simp only [Part.passClaim, free, queued, Part.modLandRing_eq]

theorem Part.passClaim_of_not_free (held : ¬(p.landRing r).Free) : p.passClaim r = p := by
  rw [← LandingRing.isFree_iff, Bool.not_eq_true] at held
  simp only [Part.passClaim, held]

theorem Part.passClaim_of_empty (empty : (p.landRing r).claimQueue = []) : p.passClaim r = p := by
  unfold Part.passClaim
  split
  · next some' => exact absurd (some'.symm.trans empty) (List.cons_ne_nil _ _)
  · rfl

end

theorem Part.askClaim_cases (p : Part) (i : Fin 64) :
    (p.Asks i → (p.landRing (p.stream i).landingRing).Free → p.askClaim i =
        p.withRing (p.stream i).landingRing { p.landRing (p.stream i).landingRing with holder := some i })
      ∧ (p.Asks i → ¬(p.landRing (p.stream i).landingRing).Free → p.askClaim i =
        p.withRing (p.stream i).landingRing
          { p.landRing (p.stream i).landingRing with
            claimQueue := (p.landRing (p.stream i).landingRing).claimQueue ++ [i] })
      ∧ (¬p.Asks i → p.askClaim i = p) :=
  ⟨Part.askClaim_free, Part.askClaim_queued, Part.askClaim_of_not_asks⟩

/-! ## The gap timer and the empty episode (R128, R140) -/

/-- The ring with its gap timer as its conditions have it (R140). -/
def Part.timedRing (p : Part) (r : Fin 8) : LandingRing :=
  { p.landRing r with
    gapTimer := if p.gapWaits r then (p.landRing r).gapTimer.startIfIdle (100 * p.cm.timers.gapTimeout) else .idle }

theorem Part.landRing_withRing_timer (p : Part) (r s : Fin 8) (t : Timer) :
    (p.withRing r { p.landRing r with gapTimer := t }).landRing s =
      { p.landRing s with gapTimer := if s = r then t else (p.landRing s).gapTimer } := by
  by_cases here : s = r
  · subst here
    rw [Part.landRing_withRing, if_pos rfl]
  · rw [if_neg here]
    exact Table.get_set_of_ne _ _ here

/-- A gap timer plays no part in a need. -/
theorem Part.needsBuffer_withRing_timer (p : Part) (r : Fin 8) (t : Timer) :
    (p.withRing r { p.landRing r with gapTimer := t }).needsBuffer r = p.needsBuffer r := by
  have stream (i : Fin 64) : (p.withRing r { p.landRing r with gapTimer := t }).stream i = p.stream i := rfl
  have queue (i : Fin 64) : (p.withRing r { p.landRing r with gapTimer := t }).queue i = p.queue i := rfl
  simp only [Part.needsBuffer, Part.busy, Part.wouldWrite, Part.ringOf, stream, queue, Part.landRing_withRing_timer,
    LandingRing.bufferAvailable, LandingRing.hasRoom, LandingRing.lands] <;> rfl

/-- The holder of ring `r` needs a buffer and there is none (R128). -/
def Part.Needs (p : Part) (r : Fin 8) : Prop :=
  ¬(p.landRing r).BufferAvailable
    ∧ ∃ i, (p.landRing r).holder = some i
        ∧ ((∃ l, (p.landRing r).landing = some l ∧ l.unplaced ≠ [])
          ∨ (¬p.Busy i ∧ ∃ d rest, p.queue i = .data d :: rest ∧ p.WouldWrite i d))

theorem Part.needsBuffer_iff (p : Part) (r : Fin 8) : p.needsBuffer r = true ↔ p.Needs r := by
  have unplaced : ((p.landRing r).landing.any fun l => !l.unplaced.isEmpty) = true ↔
      ∃ l, (p.landRing r).landing = some l ∧ l.unplaced ≠ [] := by
    simp [Option.any_eq_true]
  cases holder : (p.landRing r).holder with
  | none => simp [Part.needsBuffer, Part.Needs, holder]
  | some i =>
    simp only [Part.needsBuffer, Part.Needs, holder, Bool.and_eq_true, Bool.or_eq_true, unplaced, Part.wouldWrite_iff,
      Bool.not_eq_true', ← Bool.not_eq_true, LandingRing.bufferAvailable_iff, Part.busy_iff, Option.some.injEq,
      exists_eq_left']

/-- What follows from a change at a ring (R128, R140). -/
theorem Part.refreshRing_eq (p : Part) (r : Fin 8) : p.refreshRing r =
    p.withRing r
      (if p.needsBuffer r && !(p.landRing r).episode then { p.timedRing r with episode := true, emptyFlag := true }
      else p.timedRing r) := by
  have timed : p.updateGap r = p.withRing r (p.timedRing r) := rfl
  have needs : (p.withRing r (p.timedRing r)).needsBuffer r = p.needsBuffer r := p.needsBuffer_withRing_timer r _
  have episode : (p.timedRing r).episode = (p.landRing r).episode := rfl
  simp only [Part.refreshRing, Part.checkNeed, timed, needs, Part.landRing_withRing, episode, Part.modLandRing_eq,
    Part.withRing_withRing, ← apply_ite (p.withRing r)]

theorem Timer.startIfIdle_eq (t : Timer) (n : Nat) : t.startIfIdle n = if t = .idle then .running n else t := by
  cases t <;> rfl

theorem Part.refreshRing_cases (p : Part) (r : Fin 8) :
    let ring := p.landRing r
    let waits := ∃ i, ring.holder = some i ∧ (p.stream i).reassembly.mode = .assembling ∧ ring.landing = none
      ∧ ring.waiting = none ∧ p.queue i = []
    ∃ ring' : LandingRing, p.refreshRing r = p.withRing r ring'
      ∧ ring'.cache = ring.cache ∧ ring'.current = ring.current ∧ ring'.holder = ring.holder
      ∧ ring'.claimQueue = ring.claimQueue ∧ ring'.landing = ring.landing ∧ ring'.waiting = ring.waiting
      ∧ (waits → ring'.gapTimer =
          if ring.gapTimer = .idle then .running (100 * p.cm.timers.gapTimeout) else ring.gapTimer)
      ∧ (¬waits → ring'.gapTimer = .idle)
      ∧ (ring.episode = true → ring'.episode = true ∧ ring'.emptyFlag = ring.emptyFlag)
      ∧ (ring.episode = false → p.Needs r → ring'.episode = true ∧ ring'.emptyFlag = true)
      ∧ (ring.episode = false → ¬p.Needs r → ring'.episode = false ∧ ring'.emptyFlag = ring.emptyFlag) := by
  intro ring waits
  have runs (h : waits) : (p.timedRing r).gapTimer =
      if ring.gapTimer = .idle then .running (100 * p.cm.timers.gapTimeout) else ring.gapTimer := by
    rw [← Timer.startIfIdle_eq]
    exact if_pos ((Part.gapWaits_iff p r).2 h)
  have stops (h : ¬waits) : (p.timedRing r).gapTimer = .idle := if_neg (mt (Part.gapWaits_iff p r).1 h)
  refine ⟨_, p.refreshRing_eq r, ?_⟩
  split
  · next opens =>
    rw [Bool.and_eq_true, Bool.not_eq_true', Part.needsBuffer_iff] at opens
    obtain ⟨needs, closed⟩ := opens
    exact ⟨rfl, rfl, rfl, rfl, rfl, rfl, runs, stops, fun opened => absurd (opened.symm.trans closed) nofun,
      fun _ _ => ⟨rfl, rfl⟩, fun _ without => absurd needs without⟩
  · next stays =>
    rw [Bool.and_eq_true, Bool.not_eq_true', Part.needsBuffer_iff] at stays
    exact ⟨rfl, rfl, rfl, rfl, rfl, rfl, runs, stops, fun opened => ⟨opened, rfl⟩,
      fun closed needs => absurd ⟨needs, closed⟩ stays, fun closed _ => ⟨closed, rfl⟩⟩

/-- Settles O46. -/
theorem claimsAndNeeds : Obligations.ClaimsAndNeeds :=
  ⟨fun p i => p.askClaim_cases i, fun p r => ⟨fun _ _ => Part.passClaim_next,
    fun held => held.elim Part.passClaim_of_not_free Part.passClaim_of_empty, p.refreshRing_cases r⟩⟩

end Sys2Proof.Machine

/-! PROOF. The placing of a landing's bytes in the buffers of its ring (R127, R134). -/

namespace Sys2Proof.Machine

/-! ## Placing bytes in buffers (R127, R134) -/

/-- The USABLE entries of a cache, oldest first, as fresh buffers. -/
def freshBuffers (cache : List CacheEntry) : List Buffer := cache.filterMap CacheEntry.fresh?

theorem find_of_freshBuffers_nil {cache : List CacheEntry} (none' : freshBuffers cache = []) :
    cache.find? CacheEntry.isUsable = none := by
  rw [List.find?_eq_none]
  intro x mem usable
  have fresh := (List.filterMap_eq_nil_iff.1 none') x mem
  cases x with
  | usable => exact absurd fresh nofun
  | rejected => exact absurd usable nofun

theorem find_of_freshBuffers_cons {b : Buffer} {rest : List Buffer} : ∀ {cache : List CacheEntry},
    freshBuffers cache = b :: rest →
      cache.find? CacheEntry.isUsable = some (.usable b.slot b.address b.length) ∧ b.used = 0
        ∧ freshBuffers (cache.eraseP CacheEntry.isUsable) = rest
  | [], some' => nomatch some'
  | .usable slot address length :: cache, some' => by
    obtain ⟨rfl, rest⟩ := List.cons.inj some'
    exact ⟨rfl, rfl, rest⟩
  | .rejected slot :: cache, some' => find_of_freshBuffers_cons (cache := cache) some'

@[simp] theorem fillBuffers_nil (buffers : List Buffer) : fillBuffers buffers [] = [] := by
  cases buffers <;> rfl

theorem fillBuffers_cons (b : Buffer) (rest : List Buffer) {bytes : List Byte} (some' : bytes ≠ []) :
    fillBuffers (b :: rest) bytes =
      (b, bytes.take (b.length - b.used)) :: fillBuffers rest (bytes.drop (b.length - b.used)) := if_neg some'

/-- A placing, once a USABLE entry has become the current buffer and has taken some bytes. -/
def Placing.fill (r : Fin 8) (x : Placing) (f : Buffer × List Byte) : Placing where
  cache := x.cache.eraseP CacheEntry.isUsable
  current := some { f.1 with used := f.1.used + f.2.length }
  unplaced := x.unplaced.drop f.2.length
  issued := if f.2 = [] then x.issued else x.issued + 1
  writes :=
    if f.2 = [] then x.writes
    else x.writes ++ [⟨.landingWrite r x.issued, f.1.address + BitVec.ofNat 64 f.1.used, f.2.length, f.2⟩]
  firstSlot := if x.current.isNone then f.1.slot else x.firstSlot
  lastSlot := f.1.slot

/-- The current buffer takes no more bytes. -/
def Placing.Closed (x : Placing) : Prop := ∀ b, x.current = some b → b.used < b.length → x.unplaced = []

theorem placeAll_of_nil (r : Fin 8) (fuel : Nat) {x : Placing} (placed : x.unplaced = []) : placeAll r fuel x = x := by
  cases fuel <;> simp [placeAll, placed]

section
variable {r : Fin 8} {fuel : Nat} {x : Placing} (left : x.unplaced ≠ [])
include left

theorem placeAll_write {b : Buffer} (current : x.current = some b) (room : b.used < b.length) :
    placeAll r (fuel + 1) x = placeAll r fuel (x.write r b) := by
  simp [placeAll, left, current, room]

theorem placeAll_take {y : Placing} (closed : x.Closed) (takes : x.takeBuffer = some y) :
    placeAll r (fuel + 1) x = placeAll r fuel y := by
  cases current : x.current with
  | none => simp [placeAll, left, current, takes]
  | some b =>
    have full : ¬b.used < b.length := fun room => left (closed b current room)
    simp [placeAll, left, current, takes, full]

theorem placeAll_stuck (closed : x.Closed) (none' : x.takeBuffer = none) : placeAll r fuel x = x := by
  cases fuel with
  | zero => rfl
  | succ fuel =>
    cases current : x.current with
    | none => simp [placeAll, left, current, none']
    | some b =>
      have full : ¬b.used < b.length := fun room => left (closed b current room)
      simp [placeAll, left, current, none', full]

end

/-- A buffer that takes as many bytes as it can is full, or there are none left. -/
theorem Placing.write_closed (r : Fin 8) (x : Placing) (b : Buffer) : (x.write r b).Closed := by
  intro c current room
  obtain rfl := Option.some.inj current
  refine List.drop_eq_nil_of_le ?_
  dsimp only at room
  omega

/-- A placing with the oldest USABLE entry made its current buffer. -/
def Placing.taken (x : Placing) (b : Buffer) : Placing :=
  { x with
    cache := x.cache.eraseP CacheEntry.isUsable, current := some b
    firstSlot := if x.current.isNone then b.slot else x.firstSlot, lastSlot := b.slot }

section
variable {r : Fin 8} {x : Placing} {b : Buffer} {rest : List Buffer}

theorem Placing.takeBuffer_of_fresh (fresh : freshBuffers x.cache = b :: rest) : x.takeBuffer = some (x.taken b) := by
  obtain ⟨found, unused, _⟩ := find_of_freshBuffers_cons fresh
  obtain ⟨slot, address, length, used⟩ := b
  obtain rfl : used = 0 := unused
  simp only [Placing.takeBuffer, found, Placing.taken]

theorem Placing.fill_of_empty (unused : b.used = 0) (empty : b.length = 0) :
    x.fill r (b, x.unplaced.take b.length) = x.taken b := by
  obtain ⟨slot, address, length, used⟩ := b
  obtain rfl : used = 0 := unused
  obtain rfl : length = 0 := empty
  simp [Placing.fill, Placing.taken]

theorem Placing.fill_of_room (unused : b.used = 0) (room : 0 < b.length) (left : x.unplaced ≠ []) :
    x.fill r (b, x.unplaced.take b.length) = (x.taken b).write r b := by
  obtain ⟨slot, address, length, used⟩ := b
  obtain rfl : used = 0 := unused
  have room : 0 < length := room
  simp [Placing.fill, Placing.write, Placing.taken, left, Nat.ne_of_gt room, List.take_eq_take_iff]

theorem Placing.fill_unplaced (n : Nat) : (x.fill r (b, x.unplaced.take n)).unplaced = x.unplaced.drop n := by
  simp [Placing.fill, List.drop_eq_drop_iff]

theorem Placing.takeBuffer_of_nil (none' : freshBuffers x.cache = []) : x.takeBuffer = none := by
  simp only [Placing.takeBuffer, find_of_freshBuffers_nil none']

end

/-- With the current buffer closed, the bytes go into the USABLE entries, oldest first. -/
theorem placeAll_closed (r : Fin 8) (buffers : List Buffer) : ∀ (fuel : Nat) (x : Placing), x.Closed →
    freshBuffers x.cache = buffers → 2 * buffers.length < fuel →
      placeAll r fuel x = (fillBuffers buffers x.unplaced).foldl (Placing.fill r) x := by
  induction buffers with
  | nil =>
    intro fuel x closed fresh _
    by_cases placed : x.unplaced = []
    · simp [placeAll_of_nil r fuel placed, placed]
    · rw [placeAll_stuck placed closed (Placing.takeBuffer_of_nil fresh)]
      rfl
  | cons b rest ih =>
    intro fuel x closed fresh enough
    obtain ⟨_, unused, fresh'⟩ := find_of_freshBuffers_cons fresh
    by_cases placed : x.unplaced = []
    · simp [placeAll_of_nil r fuel placed, placed]
    · obtain ⟨fuel, rfl⟩ : ∃ n, fuel = n + 1 + 1 := ⟨fuel - 2, by simp at enough; omega⟩
      simp only [List.length_cons] at enough
      rw [placeAll_take placed closed (Placing.takeBuffer_of_fresh fresh), fillBuffers_cons b rest placed, List.foldl_cons,
        unused, Nat.sub_zero]
      have rest' := Placing.fill_unplaced (r := r) (x := x) (b := b) b.length
      by_cases empty : b.length = 0
      · have filled := Placing.fill_of_empty (r := r) (x := x) unused empty
        have closed' : (x.taken b).Closed := by
          intro c current room
          obtain rfl := Option.some.inj current
          omega
        rw [ih (fuel + 1) _ closed' fresh' (by omega), ← rest', filled]
      · have room : 0 < b.length := Nat.pos_of_ne_zero empty
        have filled := Placing.fill_of_room (r := r) unused room placed
        rw [placeAll_write (x := x.taken b) placed rfl (by omega), ih fuel ((x.taken b).write r b)
          (Placing.write_closed r _ b) fresh' (by omega),
          ← rest', filled]

/-- The host writes of some buffers' bytes, numbered from `issued`. -/
def fillWrites (r : Fin 8) (issued : Nat) (fills : List (Buffer × List Byte)) : List Access :=
  (fills.filter fun f => decide (f.2 ≠ [])).mapIdx fun k f =>
    ⟨.landingWrite r (issued + k), f.1.address + BitVec.ofNat 64 f.1.used, f.2.length, f.2⟩

theorem fillWrites_cons_empty (r : Fin 8) (issued : Nat) {f : Buffer × List Byte} (rest : List (Buffer × List Byte))
    (empty : f.2 = []) : fillWrites r issued (f :: rest) = fillWrites r issued rest := by
  simp [fillWrites, empty]

theorem fillWrites_cons (r : Fin 8) (issued : Nat) {f : Buffer × List Byte} (rest : List (Buffer × List Byte))
    (some' : f.2 ≠ []) : fillWrites r issued (f :: rest) =
      ⟨.landingWrite r issued, f.1.address + BitVec.ofNat 64 f.1.used, f.2.length, f.2⟩
        :: fillWrites r (issued + 1) rest := by
  simp [fillWrites, some', List.mapIdx_cons, Nat.add_assoc, Nat.add_comm 1]

/-- The current buffer after some fills. -/
def currentAfter (current : Option Buffer) (fills : List (Buffer × List Byte)) : Option Buffer :=
  match fills.getLast? with
  | none => current
  | some f => some { f.1 with used := f.1.used + f.2.length }

/-- The message's first slot after some buffers have been taken from the cache. -/
def firstSlotAfter (current : Option Buffer) (slot : Nat) (taken : List (Buffer × List Byte)) : Nat :=
  match current, taken.head? with
  | none, some f => f.1.slot
  | _, _ => slot

/-- The message's last slot after some buffers have been taken from the cache. -/
def lastSlotAfter (slot : Nat) (taken : List (Buffer × List Byte)) : Nat :=
  match taken.getLast? with
  | none => slot
  | some f => f.1.slot

section
variable (current : Option Buffer) (slot : Nat) (f : Buffer × List Byte) (rest : List (Buffer × List Byte))

theorem currentAfter_cons :
    currentAfter current (f :: rest) = currentAfter (some { f.1 with used := f.1.used + f.2.length }) rest := by
  rw [currentAfter, currentAfter, List.getLast?_cons]
  cases rest.getLast? <;> rfl

theorem lastSlotAfter_cons : lastSlotAfter slot (f :: rest) = lastSlotAfter f.1.slot rest := by
  rw [lastSlotAfter, lastSlotAfter, List.getLast?_cons]
  cases rest.getLast? <;> rfl

theorem firstSlotAfter_cons :
    firstSlotAfter current slot (f :: rest) = if current.isNone then f.1.slot else slot := by
  cases current <;> rfl

theorem firstSlotAfter_some (b : Buffer) : firstSlotAfter (some b) slot rest = slot := rfl

theorem firstSlotAfter_nil : firstSlotAfter current slot [] = slot := by cases current <;> rfl

end

/-- A placing after some fills, of which `taken` are buffers that come from the cache. -/
def Placing.after (r : Fin 8) (x : Placing) (fills taken : List (Buffer × List Byte)) : Placing where
  cache := Nat.repeat (fun cache => cache.eraseP CacheEntry.isUsable) taken.length x.cache
  current := currentAfter x.current fills
  unplaced := x.unplaced.drop (fills.map fun f => f.2.length).sum
  issued := x.issued + (fillWrites r x.issued fills).length
  writes := x.writes ++ fillWrites r x.issued fills
  firstSlot := firstSlotAfter x.current x.firstSlot taken
  lastSlot := lastSlotAfter x.lastSlot taken

theorem Placing.after_nil (r : Fin 8) (x : Placing) : x.after r [] [] = x := by
  simp [Placing.after, fillWrites, Nat.repeat, currentAfter, firstSlotAfter_nil, lastSlotAfter]

theorem repeat_comm {α : Type} (f : α → α) (n : Nat) (a : α) : Nat.repeat f n (f a) = Nat.repeat f (n + 1) a := by
  induction n with
  | zero => rfl
  | succ n ih => exact congrArg f ih

theorem Placing.after_fill (r : Fin 8) (x : Placing) (f : Buffer × List Byte) (rest : List (Buffer × List Byte)) :
    (x.fill r f).after r rest rest = x.after r (f :: rest) (f :: rest) := by
  by_cases empty : f.2 = []
  · simp [Placing.after, Placing.fill, currentAfter_cons, firstSlotAfter_cons, firstSlotAfter_some, lastSlotAfter_cons,
      empty, fillWrites_cons_empty, repeat_comm]
  · simp [Placing.after, Placing.fill, currentAfter_cons, firstSlotAfter_cons, firstSlotAfter_some, lastSlotAfter_cons,
      empty, fillWrites_cons, repeat_comm, List.drop_drop, Nat.add_assoc, Nat.add_comm 1]

theorem Placing.foldl_fill (r : Fin 8) (fills : List (Buffer × List Byte)) :
    ∀ x : Placing, fills.foldl (Placing.fill r) x = x.after r fills fills := by
  induction fills with
  | nil => exact fun x => (x.after_nil r).symm
  | cons f rest ih => intro x; rw [List.foldl_cons, ih, Placing.after_fill]

section
variable {r : Fin 8} {x : Placing} {b : Buffer} (left : x.unplaced ≠ []) (current : x.current = some b)
  (room : b.used < b.length)
include left current room

theorem Placing.after_write (rest : List (Buffer × List Byte)) :
    (x.write r b).after r rest rest = x.after r ((b, x.unplaced.take (b.length - b.used)) :: rest) rest := by
  have some' : x.unplaced.take (b.length - b.used) ≠ [] := by
    rw [Ne, List.take_eq_nil_iff, not_or]
    exact ⟨by omega, left⟩
  have same : x.unplaced.take (min (b.length - b.used) x.unplaced.length) = x.unplaced.take (b.length - b.used) := by
    simp [List.take_eq_take_iff]
  have writes := fillWrites_cons r x.issued (f := (b, x.unplaced.take (b.length - b.used))) rest some'
  simp [Placing.after, Placing.write, current, currentAfter_cons, writes,
    firstSlotAfter_some, List.drop_drop, same, Nat.add_assoc, Nat.add_comm 1]

end

/-- The current buffer, where it has room. -/
def openBuffer (current : Option Buffer) : List Buffer := current.toList.filter fun b => decide (b.used < b.length)

/-- The placing of bytes, buffer after buffer (R127, R134). -/
theorem placeAll_eq (r : Fin 8) {fuel : Nat} {x : Placing} (enough : 2 * (freshBuffers x.cache).length + 1 < fuel) :
    placeAll r fuel x =
      x.after r (fillBuffers (openBuffer x.current ++ freshBuffers x.cache) x.unplaced)
        ((fillBuffers (openBuffer x.current ++ freshBuffers x.cache) x.unplaced).drop (openBuffer x.current).length) := by
  by_cases placed : x.unplaced = []
  · rw [placeAll_of_nil r fuel placed, placed, fillBuffers_nil, List.drop_nil, Placing.after_nil]
  · by_cases room : ∃ b, x.current = some b ∧ b.used < b.length
    · obtain ⟨b, current, room⟩ := room
      have opened : openBuffer x.current = [b] := by simp [openBuffer, current, room]
      obtain ⟨fuel, rfl⟩ : ∃ n, fuel = n + 1 := ⟨fuel - 1, by omega⟩
      have rest : (x.write r b).unplaced = x.unplaced.drop (b.length - b.used) := by
        simp [Placing.write, List.drop_eq_drop_iff]
      rw [placeAll_write placed current room, placeAll_closed r _ fuel _ (Placing.write_closed r x b) rfl (by
          change 2 * (freshBuffers x.cache).length < fuel; omega), rest, Placing.foldl_fill,
        Placing.after_write placed current room, opened, List.singleton_append, fillBuffers_cons _ _ placed]
      rfl
    · have closed : x.Closed := fun b current has => absurd ⟨b, current, has⟩ room
      have opened : openBuffer x.current = [] := by
        cases current : x.current with
        | none => rfl
        | some b =>
          have full : ¬b.used < b.length := fun has => room ⟨b, current, has⟩
          simp [openBuffer, full]
      rw [placeAll_closed r _ fuel x closed rfl (by omega), Placing.foldl_fill, opened, List.nil_append, List.length_nil,
        List.drop_zero]

/-- Fills leave bytes over only where they have used up the cache. -/
theorem foldl_fill_left (r : Fin 8) (buffers : List Buffer) : ∀ x : Placing, x.Closed → freshBuffers x.cache = buffers →
    ((fillBuffers buffers x.unplaced).foldl (Placing.fill r) x).unplaced ≠ [] →
      ((fillBuffers buffers x.unplaced).foldl (Placing.fill r) x).Closed
        ∧ freshBuffers ((fillBuffers buffers x.unplaced).foldl (Placing.fill r) x).cache = [] := by
  induction buffers with
  | nil => exact fun x closed fresh _ => ⟨closed, fresh⟩
  | cons b rest ih =>
    intro x closed fresh left
    by_cases placed : x.unplaced = []
    · rw [placed, fillBuffers_nil] at left
      exact absurd placed left
    · obtain ⟨_, unused, fresh'⟩ := find_of_freshBuffers_cons fresh
      have closed' : (x.fill r (b, x.unplaced.take (b.length - b.used))).Closed := by
        intro c current room
        obtain rfl := Option.some.inj current
        rw [Placing.fill_unplaced]
        refine List.drop_eq_nil_of_le ?_
        simp only [List.length_take] at room
        omega
      rw [fillBuffers_cons b rest placed, List.foldl_cons, ← Placing.fill_unplaced (r := r) (b := b)] at left ⊢
      exact ih _ closed' fresh' left

/-- Bytes are left only where no buffer takes them. -/
theorem placeAll_left (r : Fin 8) {fuel : Nat} {x : Placing} (enough : 2 * (freshBuffers x.cache).length + 1 < fuel)
    (left : (placeAll r fuel x).unplaced ≠ []) :
    (placeAll r fuel x).Closed ∧ freshBuffers (placeAll r fuel x).cache = [] := by
  have placed : x.unplaced ≠ [] := fun placed => left (by rw [placeAll_of_nil r fuel placed, placed])
  by_cases room : ∃ b, x.current = some b ∧ b.used < b.length
  · obtain ⟨b, current, room⟩ := room
    obtain ⟨fuel, rfl⟩ : ∃ n, fuel = n + 1 := ⟨fuel - 1, by omega⟩
    have same : placeAll r (fuel + 1) x = _ := (placeAll_write placed current room).trans
      (placeAll_closed r _ fuel _ (Placing.write_closed r x b) rfl (by
        change 2 * (freshBuffers x.cache).length < fuel; omega))
    rw [same] at left ⊢
    exact foldl_fill_left r _ _ (Placing.write_closed r x b) rfl left
  · have closed : x.Closed := fun b current has => absurd ⟨b, current, has⟩ room
    rw [placeAll_closed r _ fuel x closed rfl (by omega)] at left ⊢
    exact foldl_fill_left r _ x closed rfl left

theorem freshBuffers_length (cache : List CacheEntry) : (freshBuffers cache).length ≤ cache.length :=
  List.length_filterMap_le ..

/-- What DL works on as it places the bytes of a landing at ring `r`. -/
def Part.placing (p : Part) (r : Fin 8) (l : Landing) : Placing :=
  ⟨(p.landRing r).cache, (p.landRing r).current, l.unplaced, l.issued, [], (p.stream l.stream).reassembly.firstSlot,
    (p.stream l.stream).reassembly.lastSlot⟩

/-- A part with a placing of a landing's bytes done. -/
def Part.placed (p : Part) (r : Fin 8) (l : Landing) (y : Placing) : Part :=
  { p with
    hi := { p.hi with accesses := p.hi.accesses ++ y.writes }
    dl := { p.dl with
      rings := p.dl.rings.set r
        { p.landRing r with
          cache := y.cache, current := y.current
          landing := some { l with
            unplaced := y.unplaced, issued := y.issued
            writes := l.writes ++ (List.range (y.issued - l.issued)).map fun k => l.issued + k } } }
    streams := p.streams.set l.stream
      { p.stream l.stream with
        reassembly := { (p.stream l.stream).reassembly with firstSlot := y.firstSlot, lastSlot := y.lastSlot } } }

theorem Part.place_eq {p : Part} {r : Fin 8} {l : Landing} (flies : (p.landRing r).landing = some l) : p.place r =
    p.placed r l (placeAll r (placeFuel (p.placing r l)) (p.placing r l)) := by
  simp only [Part.place, flies]
  rfl

theorem placeFuel_enough (x : Placing) : 2 * (freshBuffers x.cache).length + 1 < placeFuel x := by
  have := freshBuffers_length x.cache
  unfold placeFuel
  omega

/-- Settles O48. -/
theorem bytesPlaced : Obligations.BytesPlaced := by
  intro p r l flies ring e opened fills taken writes left current firstSlot lastSlot landing placed x
  have enough := placeFuel_enough (p.placing r l)
  have placing : placeAll r (placeFuel (p.placing r l)) (p.placing r l) = (p.placing r l).after r fills taken :=
    placeAll_eq r enough
  have place := Part.place_eq flies
  refine ⟨?_, fun some' => ?_⟩
  · have issued : ((p.placing r l).after r fills taken).issued - l.issued = writes.length := Nat.add_sub_cancel_left ..
    rw [place, placing]
    simp only [Part.placed, issued]
    rfl
  · obtain ⟨closed, fresh⟩ := placeAll_left r enough (by rw [placing]; exact some')
    have ring : (p.placed r l (placeAll r (placeFuel (p.placing r l)) (p.placing r l))).landRing r = _ :=
      Table.get_set_self ..
    rw [place, ring]
    rintro (⟨b, current, room⟩ | ⟨slot, address, length, mem⟩)
    · exact some' ((congrArg Placing.unplaced placing).symm.trans (closed b current room))
    · exact absurd (List.filterMap_eq_nil_iff.1 fresh _ mem) nofun

end Sys2Proof.Machine

/-! PROOF. What becomes of a message with the end of its landing, of its landing ring's gap timer, and with the heads that
DL takes (R78, R79, R132 to R143). -/

namespace Sys2Proof.Machine

/-! ## The end of a landing (R135, R136, R141 to R143) -/

/-- The part with no landing in flight at ring `r`. -/
def Part.landed (p : Part) (r : Fin 8) : Part := p.withRing r { p.landRing r with landing := none }

/-- The part with some bytes more counted for stream `i`'s message. -/
def Part.counted (p : Part) (i : Fin 64) (n : Nat) : Part :=
  p.withStream i
    { p.stream i with
      reassembly := { (p.stream i).reassembly with bytesSoFar := (p.stream i).reassembly.bytesSoFar + n } }

/-- A message whose fields a teardown kept, as its completion reports it. -/
def KeptMessage.completion (m : KeptMessage) (i : Fin 64) (cause : LandingCause) : MessageCompletion :=
  ⟨i, m.firstSlot, m.lastSlot, m.bytesSoFar, m.mark, cause.status⟩

section
variable {p : Part} {r : Fin 8} {l : Landing} (flies : (p.landRing r).landing = some l) (ended : l.ended = true)
include flies ended

theorem Part.endLanding_kept {m : KeptMessage} (kept : l.kept = some m) : p.endLanding r =
    (((p.landed r).postMessage r (m.completion l.stream l.cause)).askClaim l.stream).refreshRing r := by
  simp only [Part.endLanding, flies, ended, Bool.not_true, Bool.false_eq_true, if_false, kept]
  rfl

variable (fresh : l.kept = none)
include fresh

theorem Part.endLanding_failed (cause : l.cause = .hostWriteFault) : p.endLanding r =
    ((p.landed r).messageEnded l.stream .hostWriteFault .discarding).refreshRing r := by
  simp only [Part.endLanding, flies, ended, Bool.not_true, Bool.false_eq_true, if_false, fresh, cause,
    Part.endMessage_eq]
  rfl

variable (cause : l.cause = .none)
include cause

theorem Part.endLanding_oversize (cut : l.whole = false) : p.endLanding r =
    (((p.landed r).counted l.stream l.payload.length).messageEnded l.stream .oversize .discarding).refreshRing r := by
  simp only [Part.endLanding, flies, ended, Bool.not_true, Bool.not_false, Bool.false_eq_true, if_false, if_true, fresh,
    cause, cut, Part.endMessage_eq]
  rfl

theorem Part.endLanding_last (whole : l.whole = true) (last : l.last = true) : p.endLanding r =
    (((p.landed r).counted l.stream l.payload.length).messageEnded l.stream .ok .idle).refreshRing r := by
  simp only [Part.endLanding, flies, ended, Bool.not_true, Bool.false_eq_true, if_false, if_true, fresh, cause, whole,
    last, Part.endMessage_eq]
  rfl

theorem Part.endLanding_more (whole : l.whole = true) (more : l.last = false) : p.endLanding r =
    ((p.landed r).counted l.stream l.payload.length).refreshRing r := by
  simp only [Part.endLanding, flies, ended, Bool.not_true, Bool.false_eq_true, if_false, fresh, cause, whole, more]
  rfl

end

/-- A landing once one of its writes has ended (R134, R141). -/
def Landing.written (l : Landing) (k : Nat) (ok : Bool) : Landing :=
  { l with
    cause := if ok = false ∧ l.cause = .none then .hostWriteFault else l.cause
    writes := l.writes.filter fun n => decide (n ≠ k)
    unplaced := if ok = false ∧ l.cause = .none then [] else l.unplaced }

theorem Part.landingWriteEnd_eq {p : Part} {r : Fin 8} {l : Landing} (flies : (p.landRing r).landing = some l) (k : Nat)
    (ok : Bool) : p.landingWriteEnd r k ok =
      (p.withRing r { p.landRing r with landing := some (l.written k ok) }).endLanding r := by
  have fails : (!ok && decide (l.cause = .none)) = decide (ok = false ∧ l.cause = .none) := by cases ok <;> simp
  simp only [Part.landingWriteEnd, Part.modLandRing_eq, flies, Option.map_some, fails, decide_eq_true_eq, Landing.written]

theorem Part.landed_withRing (p : Part) (r : Fin 8) (g : LandingRing) :
    (p.withRing r g).landed r = p.withRing r { g with landing := none } := by
  rw [Part.landed, Part.withRing_withRing, Part.landRing_withRing]

theorem Part.postMessage_withRing (p : Part) (r : Fin 8) (g : LandingRing) (m : MessageCompletion) :
    (p.withRing r g).postMessage r m =
      { p with
        dl := { p.dl with
          rings := p.dl.rings.set r { g with current := none, waiting := some m }
          line := p.dl.line ++ [.message r m] } } := by
  rw [Part.postMessage, Part.modLandRing_eq, Part.withRing_withRing, Part.landRing_withRing]
  rfl

/-- A landing that has all its bytes placed and its writes ended. -/
theorem Landing.ended_iff (l : Landing) : l.ended = true ↔ l.unplaced = [] ∧ l.writes = [] := by
  simp [Landing.ended]

/-! ## The gap timer (R140) -/

theorem Part.gapExpiry_running {p : Part} {r : Fin 8} {n : Nat} {i : Fin 64}
    (runs : (p.landRing r).gapTimer = .running n) (holder : (p.landRing r).holder = some i) : p.gapExpiry r =
      ((p.withRing r { p.landRing r with gapTimer := .idle }).messageEnded i .incomplete .discarding).refreshRing r := by
  simp only [Part.gapExpiry, runs, Timer.isRunning, holder, Part.endMessage_eq, Bool.not_true, Bool.false_eq_true, if_false,
    Part.modLandRing_eq]

theorem Part.gapExpiry_idle {p : Part} {r : Fin 8} (idle : (p.landRing r).gapTimer = .idle) : p.gapExpiry r = p := by
  simp only [Part.gapExpiry, idle, Timer.isRunning, Bool.not_false, if_true]

/-- Settles O49. -/
theorem messageEnds : Obligations.MessageEnds := by
  refine ⟨fun s r k ok a l running inFlight flies => ?_, fun s r => ⟨fun n i runs holder => ?_, fun idle => ?_⟩⟩
  · intro p fails cause writes unplaced i e answer landed counted
    have flies' : (p.landRing r).landing = some l := flies
    have ends {q : Part} (is : (p.withRing r
        { p.landRing r with landing := some (l.written k ok) }).endLanding r = q) : answer q := by
      have delivered : s.toPart.landingWriteEnds r k ok = (p.landingWriteEnd r k ok).settle :=
        Part.onAccessEnd_delivered inFlight running
      exact exec_of_effect (delivered.trans (by rw [Part.landingWriteEnd_eq flies', is]))
    have written : ((p.withRing r { p.landRing r with landing := some (l.written k ok) }).landRing r).landing =
        some (l.written k ok) := by rw [Part.landRing_withRing]
    have landed' : (p.withRing r { p.landRing r with landing := some (l.written k ok) }).landed r = landed :=
      Part.landed_withRing ..
    refine ⟨fun waits => ?_, fun placed done => ?_⟩
    · have waits' : (l.written k ok).ended = false := by
        rw [← Bool.not_eq_true, Landing.ended_iff]
        exact fun both => waits.elim (fun h => h both.1) fun h => h both.2
      exact ends (Part.endLanding_waits written waits')
    · have ended : (l.written k ok).ended = true := (Landing.ended_iff _).2 ⟨placed, done⟩
      refine ⟨fun fresh none' => ⟨fun cut => ?_, fun whole last => ?_, fun whole more => ?_⟩, fun fresh failed => ?_,
        fun fresh cancelled => ?_, fun m kept => ?_⟩
      · exact ends ((Part.endLanding_oversize written ended fresh none' cut).trans (by rw [landed']; rfl))
      · exact ends ((Part.endLanding_last written ended fresh none' whole last).trans (by rw [landed']; rfl))
      · exact ends ((Part.endLanding_more written ended fresh none' whole more).trans (by rw [landed']; rfl))
      · exact ends ((Part.endLanding_failed written ended fresh failed).trans (by rw [landed']; rfl))
      · exact ends ((Part.endLanding_cancelled written ended fresh cancelled).trans (by rw [← landed']; rfl))
      · exact ends ((Part.endLanding_kept written ended kept).trans (by
          rw [landed', Part.postMessage_withRing]; rfl))
  · exact exec_of_effect (congrArg Part.settle (Part.gapExpiry_running runs holder))
  · exact exec_of_effect (congrArg Part.settle (Part.gapExpiry_idle idle))

end Sys2Proof.Machine

/-! PROOF. The heads that DL takes, and the slot that a DATA head frees (R78, R79, R132 to R139). -/

namespace Sys2Proof.Machine

/-! ## Freeing a slot and returning its credit (R78, R79) -/

/-- The part with the head of stream `i`'s queue taken, its slot freed, and some returns and a control queue. -/
def Part.freed (p : Part) (i : Fin 64) (rest : List InboundEntry) (pending : Nat) (control : List ControlEntry) : Part :=
  { p with
    ib := { p.ib with freeCount := p.ib.freeCount + 1, queues := p.ib.queues.set i rest }
    streams := p.streams.set i { p.stream i with occupancy := (p.stream i).occupancy - 1, pendingReturns := pending }
    control := control }

/-- The counted returns are asked for: at the return batch, or with the stream's last slot (R79). -/
def Part.ReturnsDue (p : Part) (i : Fin 64) : Prop :=
  (p.stream i).returnBatch ≤ (p.stream i).pendingReturns + 1 ∨ (p.stream i).occupancy ≤ 1

/-- The control queue with the counted returns of stream `i` asked for as one GRANT (R24, R79). -/
def Part.returned (p : Part) (i : Fin 64) : List ControlEntry :=
  if p.grantWaits i then p.control.map (ControlEntry.merge i ((p.stream i).pendingReturns + 1))
  else if p.withdrawWaits i then p.control
  else p.control ++ [.grant i (p.stream i).allotment ((p.stream i).pendingReturns + 1) (p.stream i).maxInbound]

theorem Part.stream_freed (p : Part) (i : Fin 64) (rest : List InboundEntry) (pending : Nat)
    (control : List ControlEntry) : (p.freed i rest pending control).stream i =
      { p.stream i with occupancy := (p.stream i).occupancy - 1, pendingReturns := pending } :=
  Table.get_set_self ..

theorem Part.freed_modStream (p : Part) (i : Fin 64) (rest : List InboundEntry) (n pending : Nat)
    (control : List ControlEntry) :
    ((p.freed i rest n control).modStream i fun e => { e with pendingReturns := pending }) =
      p.freed i rest pending control := by
  simp only [Part.modStream, Part.freed, Table.modify, Table.get_set_self, Table.set_set]

theorem Part.removeHead_eq {p : Part} {i : Fin 64} {head : InboundEntry} {rest : List InboundEntry}
    (queue : p.queue i = head :: rest) : p.removeHead i = p.withQueue i rest := by
  rw [Part.removeHead, queue]
  rfl

section
variable {p : Part} {i : Fin 64} {d : StoredData} {rest : List InboundEntry} (head : p.queue i = .data d :: rest)
include head

/-- The part once the slot of a DATA head is free, before its return is counted. -/
theorem Part.takeData_begins : p.takeData i =
    (let q := p.freed i rest (p.stream i).pendingReturns p.control
    if (q.stream i).state ≠ .opened then q
    else if (q.stream i).returnBatch ≤ (q.stream i).pendingReturns + 1 || (q.stream i).occupancy = 0 then
      (q.modStream i fun e => { e with pendingReturns := 0 }).queueReturnGrant i ((q.stream i).pendingReturns + 1)
    else q.modStream i fun e => { e with pendingReturns := (q.stream i).pendingReturns + 1 }) := by
  rw [Part.takeData, Part.removeHead_eq head]
  rfl

theorem Part.takeData_of_not_opened (closed : (p.stream i).state ≠ .opened) :
    p.takeData i = p.freed i rest (p.stream i).pendingReturns p.control := by
  rw [Part.takeData_begins head]
  simp only [Part.stream_freed]
  exact if_pos closed

theorem Part.takeData_of_opened (opened : (p.stream i).state = .opened) : p.takeData i =
    if (p.stream i).returnBatch ≤ (p.stream i).pendingReturns + 1 || (p.stream i).occupancy - 1 = 0 then
      (p.freed i rest 0 p.control).queueReturnGrant i ((p.stream i).pendingReturns + 1)
    else p.freed i rest ((p.stream i).pendingReturns + 1) p.control := by
  rw [Part.takeData_begins head]
  simp only [Part.stream_freed, Part.freed_modStream]
  exact if_neg (Classical.not_not.2 opened)

theorem Part.takeData_counted (opened : (p.stream i).state = .opened) (early : ¬p.ReturnsDue i) :
    p.takeData i = p.freed i rest ((p.stream i).pendingReturns + 1) p.control := by
  rw [Part.takeData_of_opened head opened]
  refine if_neg ?_
  rw [Bool.or_eq_true, decide_eq_true_eq, decide_eq_true_eq, Nat.sub_eq_zero_iff_le]
  exact early

theorem Part.takeData_returned (opened : (p.stream i).state = .opened) (due : p.ReturnsDue i) :
    p.takeData i = p.freed i rest 0 (p.returned i) := by
  rw [Part.takeData_of_opened head opened, if_pos]
  · have still : ((p.freed i rest 0 p.control).stream i).state = .opened := by rw [Part.stream_freed]; exact opened
    rw [Part.queueReturnGrant, if_pos still, Part.queueGrant_eq, Part.stream_freed]
    rfl
  · rw [Bool.or_eq_true, decide_eq_true_eq, decide_eq_true_eq, Nat.sub_eq_zero_iff_le]
    exact due

/-- What a DATA head's taking leaves of its stream. -/
theorem Part.stream_takeData : ∃ pending, (p.takeData i).stream i =
    { p.stream i with occupancy := (p.stream i).occupancy - 1, pendingReturns := pending } := by
  by_cases opened : (p.stream i).state = .opened
  · by_cases due : p.ReturnsDue i
    · exact ⟨_, by rw [Part.takeData_returned head opened due, Part.stream_freed]⟩
    · exact ⟨_, by rw [Part.takeData_counted head opened due, Part.stream_freed]⟩
  · exact ⟨_, by rw [Part.takeData_of_not_opened head opened, Part.stream_freed]⟩

end

/-! ## Landing a parcel (R134, R136) -/

/-- The part with a landing in flight of a DATA parcel, of which some bytes are wanted, and as many of them placed as
there are buffers for. -/
def Part.lands (p : Part) (r : Fin 8) (i : Fin 64) (d : StoredData) (room : Nat) : Part :=
  (p.withRing r
    { p.landRing r with
      landing := some
        ⟨i, d.payload.take room, d.last, decide (d.payload.length ≤ room), d.payload.take room, [], 0, .none,
          none⟩ }).place r

/-- The part with stream `i`'s reassembly replaced. -/
def Part.reassembles (p : Part) (i : Fin 64) (x : Reassembly) : Part :=
  p.withStream i { p.stream i with reassembly := x }

theorem Part.stream_reassembles (p : Part) (i : Fin 64) (x : Reassembly) :
    (p.reassembles i x).stream i = { p.stream i with reassembly := x } := Table.get_set_self ..

theorem Part.reassembles_reassembles (p : Part) (i : Fin 64) (x y : Reassembly) :
    (p.reassembles i x).reassembles i y = p.reassembles i y := by
  rw [Part.reassembles, Part.stream_reassembles, Part.withStream, Part.reassembles, Part.withStream]
  simp only [Table.set_set]
  rfl

theorem Part.land_eq (p : Part) (i : Fin 64) (d : StoredData) : p.land i d =
    (p.reassembles i { (p.stream i).reassembly with expected := d.index + 1 }).lands (p.stream i).landingRing i d
      ((p.stream i).maxInbound - (p.stream i).reassembly.bytesSoFar) := rfl

theorem Part.beginMessage_land (p : Part) (i : Fin 64) {d : StoredData} (first : d.index = 0) :
    (p.beginMessage i d.mark).land i d =
      (p.reassembles i { (p.stream i).reassembly with
        mode := .assembling, expected := 1, bytesSoFar := 0, mark := d.mark }).lands (p.stream i).landingRing i d
        (p.stream i).maxInbound := by
  have begun : p.beginMessage i d.mark = p.reassembles i { (p.stream i).reassembly with
      mode := .assembling, expected := 1, bytesSoFar := 0, mark := d.mark } := rfl
  rw [Part.land_eq, begun, Part.reassembles_reassembles, Part.stream_reassembles, first]
  rfl

section
variable {p : Part} {i : Fin 64} {d : StoredData} {rest : List InboundEntry} (head : p.queue i = .data d :: rest)
include head

/-- The slot that a head frees leaves the stream's ring, its maximum and its message as they are. -/
theorem Part.takeData_keeps : ((p.takeData i).stream i).landingRing = (p.stream i).landingRing
    ∧ ((p.takeData i).stream i).maxInbound = (p.stream i).maxInbound
    ∧ ((p.takeData i).stream i).reassembly = (p.stream i).reassembly := by
  obtain ⟨pending, is⟩ := Part.stream_takeData head
  rw [is]
  exact ⟨rfl, rfl, rfl⟩

theorem Part.takeData_land : (p.takeData i).land i d =
    ((p.takeData i).reassembles i { ((p.takeData i).stream i).reassembly with expected := d.index + 1 }).lands
      (p.stream i).landingRing i d ((p.stream i).maxInbound - (p.stream i).reassembly.bytesSoFar) := by
  obtain ⟨ring, most, message⟩ := Part.takeData_keeps head
  rw [Part.land_eq, ring, most, message]

theorem Part.takeData_begin_land (first : d.index = 0) : ((p.takeData i).beginMessage i d.mark).land i d =
    ((p.takeData i).reassembles i { ((p.takeData i).stream i).reassembly with
      mode := .assembling, expected := 1, bytesSoFar := 0, mark := d.mark }).lands (p.stream i).landingRing i d
      (p.stream i).maxInbound := by
  obtain ⟨ring, most, _⟩ := Part.takeData_keeps head
  rw [Part.beginMessage_land _ _ first, ring, most]

end

/-! ## Serving a head (R133, R136 to R139) -/

section
variable {p : Part} {i : Fin 64}

theorem Part.setMode_eq (p : Part) (i : Fin 64) (mode : Mode) :
    p.setMode i mode = p.reassembles i { (p.stream i).reassembly with mode := mode } := rfl

theorem Part.serveCut_eq {rest : List InboundEntry} (queue : p.queue i = .cutMarker :: rest) : p.serveCut i =
    if (p.stream i).reassembly.mode = .assembling then (p.withQueue i rest).messageEnded i .cut .idle
    else (p.withQueue i rest).reassembles i { (p.stream i).reassembly with mode := .idle } := by
  simp only [Part.serveCut, Part.removeHead_eq queue, Part.endMessage_eq]
  rfl

theorem Part.serveWithdraw_eq {rest : List InboundEntry} (queue : p.queue i = .withdrawMarker :: rest) :
    p.serveWithdraw i =
      if (p.stream i).reassembly.mode = .assembling then (p.withQueue i rest).messageEnded i .peerClosed .idle
      else ((p.withQueue i rest).reassembles i { (p.stream i).reassembly with mode := .idle }).markerReported i := by
  simp only [Part.serveWithdraw, Part.removeHead_eq queue, Part.endMessage_eq]
  rfl

theorem Part.markerReported_of_winding (winding : (p.stream i).state = .winding) (x : Reassembly) :
    (p.reassembles i x).markerReported i =
      (p.withStream i { p.stream i with markerProcessed := true, reassembly := x }).exitTest i := by
  have state : ((p.reassembles i x).stream i).state = .winding := by rw [Part.stream_reassembles]; exact winding
  have marked : ((p.reassembles i x).modStream i fun e => { e with markerProcessed := true }) =
      p.withStream i { p.stream i with markerProcessed := true, reassembly := x } := by
    simp only [Part.modStream, Part.reassembles, Part.withStream, Table.modify, Table.get_set_self, Table.set_set]
  rw [Part.markerReported, if_pos state, marked]

theorem Part.markerReported_of_not_winding (other : (p.stream i).state ≠ .winding) (x : Reassembly) :
    (p.reassembles i x).markerReported i = p.reassembles i x := by
  have state : ((p.reassembles i x).stream i).state ≠ .winding := by rw [Part.stream_reassembles]; exact other
  exact if_neg state

section
variable {d : StoredData} (assembling : (p.stream i).reassembly.mode = .assembling)
include assembling

theorem Part.serveData_first (first : d.index = 0) : p.serveData i d = p.messageEnded i .incomplete .idle := by
  simp only [Part.serveData, assembling, first, if_true, Part.endMessage_eq]

variable (later : d.index ≠ 0)
include later

theorem Part.serveData_gap (gap : d.index ≠ (p.stream i).reassembly.expected) :
    p.serveData i d = (p.takeData i).messageEnded i .incomplete .discarding := by
  simp only [Part.serveData, assembling, if_neg later, if_pos gap, Part.endMessage_eq]

variable (next : d.index = (p.stream i).reassembly.expected)
include next

theorem Part.serveData_full (full : (p.stream i).maxInbound ≤ (p.stream i).reassembly.bytesSoFar) :
    p.serveData i d = (p.takeData i).messageEnded i .oversize .discarding := by
  simp only [Part.serveData, assembling, if_neg later, if_neg (Classical.not_not.2 next), if_pos full, Part.endMessage_eq]

theorem Part.serveData_next (room : (p.stream i).reassembly.bytesSoFar < (p.stream i).maxInbound) :
    p.serveData i d = (p.takeData i).land i d := by
  simp only [Part.serveData, assembling, if_neg later, if_neg (Classical.not_not.2 next), if_neg (Nat.not_le.2 room)]

end

section
variable {d : StoredData} (between : (p.stream i).reassembly.mode ≠ .assembling)
include between

/-- Between messages, a DATA head begins one or is discarded. -/
theorem Part.serveData_between : p.serveData i d =
    if d.index ≠ 0 then (p.takeData i).setMode i .discarding
    else ((p.takeData i).beginMessage i d.mark).land i d := by
  unfold Part.serveData
  dsimp only
  split
  · next assembling => exact absurd assembling between
  · rfl

end

/-! ## The rotation (R132) -/

/-- What follows once a head of stream `i` has been served. -/
def Part.served (p : Part) (i : Fin 64) (r : Fin 8) : Part := (p.askClaim i).refreshRing r

section
variable {head : InboundEntry} {rest : List InboundEntry} (next : p.nextDeliverable = some i)
  (queue : p.queue i = head :: rest)
include next queue

theorem Part.deliver_eq : p.deliver =
    ((match head with
      | .data d => Part.serveData { p with dl := { p.dl with pointer := i } } i d
      | .cutMarker => Part.serveCut { p with dl := { p.dl with pointer := i } } i
      | .withdrawMarker => Part.serveWithdraw { p with dl := { p.dl with pointer := i } } i).served i
        (p.stream i).landingRing) := by
  have queue' : Part.queue { p with dl := { p.dl with pointer := i } } i = head :: rest := queue
  simp only [Part.deliver, next, queue']
  cases head <;> rfl

end

end

/-- Settles O47. -/
theorem deliveryTakeEffect : Obligations.DeliveryTakeEffect := by
  refine ⟨fun s i running deliverable first => ?_, fun s => ⟨fun stopped => ?_, fun running none' => ?_⟩,
    fun p i d rest head => ?_⟩
  · intro e p answer asm mode
    have next : s.toPart.nextDeliverable = some i := Part.nextDeliverable_eq deliverable first
    have takes {q : Part} (delivers : s.toPart.deliver = q.served i e.landingRing) : answer q :=
      exec_of_effect ((if_pos (decide_eq_true running)).trans (congrArg Part.settle delivers))
    refine ⟨fun rest queue => ⟨fun assembling => ?_, fun between => ?_⟩,
      fun rest queue => ⟨fun assembling => ?_, fun between open' => ?_, fun between winding => ?_⟩,
      fun d rest queue => ?_⟩
    · exact takes ((Part.deliver_eq next queue).trans
        (congrArg (Part.served · i e.landingRing) ((Part.serveCut_eq (p := p) queue).trans (if_pos assembling))))
    · exact takes ((Part.deliver_eq next queue).trans
        (congrArg (Part.served · i e.landingRing) ((Part.serveCut_eq (p := p) queue).trans (if_neg between))))
    · exact takes ((Part.deliver_eq next queue).trans
        (congrArg (Part.served · i e.landingRing) ((Part.serveWithdraw_eq (p := p) queue).trans (if_pos assembling))))
    · exact takes ((Part.deliver_eq next queue).trans
        (congrArg (Part.served · i e.landingRing) ((Part.serveWithdraw_eq (p := p) queue).trans ((if_neg between).trans
          (Part.markerReported_of_not_winding (p := p.withQueue i rest) open' _)))))
    · exact takes ((Part.deliver_eq next queue).trans
        (congrArg (Part.served · i e.landingRing) ((Part.serveWithdraw_eq (p := p) queue).trans ((if_neg between).trans
          (Part.markerReported_of_winding (p := p.withQueue i rest) winding _)))))
    · intro taken x landed
      have data {q : Part} (serves : p.serveData i d = q) : answer q :=
        takes ((Part.deliver_eq next queue).trans (congrArg (Part.served · i e.landingRing) serves))
      refine ⟨fun assembling first => ?_, fun assembling later gap => ?_, fun assembling later next full => ?_,
        fun assembling later next room => ?_, fun between later => ?_, fun between first => ?_⟩
      · exact data (Part.serveData_first (p := p) assembling first)
      · exact data (Part.serveData_gap (p := p) assembling later gap)
      · exact data (Part.serveData_full (p := p) assembling later next full)
      · exact data ((Part.serveData_next (p := p) assembling later next room).trans (Part.takeData_land (p := p) queue))
      · exact data ((Part.serveData_between (p := p) between).trans (if_pos later))
      · exact data ((Part.serveData_between (p := p) between).trans ((if_neg (Classical.not_not.2 first)).trans
          (Part.takeData_begin_land (p := p) queue first)))
  · exact exec_of_effect (if_neg (mt of_decide_eq_true stopped))
  · have rests : s.toPart.deliver = s.toPart := by rw [Part.deliver, Part.nextDeliverable_none none']
    exact exec_of_effect ((if_pos (decide_eq_true running)).trans (congrArg Part.settle rests))
  · refine ⟨Part.takeData_of_not_opened head, Part.takeData_counted head, fun opened due grant => ?_,
      fun opened due noGrant withdraw => ?_, fun opened due noGrant noWithdraw => ?_⟩
    · refine (Part.takeData_returned head opened due).trans (congrArg (p.freed i rest 0)
        ((if_pos grant).trans (List.map_congr_left fun x _ => ?_)))
      cases x <;> rfl
    · exact (Part.takeData_returned head opened due).trans (congrArg (p.freed i rest 0)
        ((if_neg (Bool.eq_false_iff.1 noGrant)).trans (if_pos withdraw)))
    · exact (Part.takeData_returned head opened due).trans (congrArg (p.freed i rest 0)
        ((if_neg (Bool.eq_false_iff.1 noGrant)).trans (if_neg (Bool.eq_false_iff.1 noWithdraw))))

end Sys2Proof.Machine
